-- ==== Sys2Proof/Word.lean ====
section
/-! DEFINITION. The data widths of the Gunchuk CORE (rules R6, R8, R9): every cell, address and transfer unit is
one unsigned byte, and the block's fixed-length byte runs are vectors of bytes. -/

namespace Sys2Proof

/-- A byte: an 8-bit unsigned value; addresses are bytes too, so address arithmetic wraps mod 256 (R9, R63). -/
abbrev Byte := BitVec 8

/-- A report buffer: 6 bytes (R6, R36). -/
abbrev Buf6 := Vector Byte 6

/-- A cipher table: 8 entries, indexed by address mod 8 (R6, R33). -/
abbrev Table := Vector Byte 8

/-- The 10-byte seed array (R26, R33). -/
abbrev Seed := Vector Byte 10

/-- The 6-byte key array (R26, R33). -/
abbrev Key := Vector Byte 6

/-- The 14-byte calibration payload (R25). -/
abbrev CalPayload := Vector Byte 14

end Sys2Proof
end

