-- ==== Sys2Proof/Config.lean ====
section
/-! DEFINITION. The implementation parameters of rule R7. The OPEN ones (D26, D27, D28) and the streaming
collaborator's free draw (R225) are opaque constants: no proof can see their values. The ones the spec decides are
plain definitions. -/

namespace Sys2Proof

/-- `P_ID_BLOCK`: the 6 bytes written to 0xFA-0xFF at startup; OPEN (R7, D26). Log entry 8. -/
opaque Config.idBlock : Buf6

/-- `P_CAL_PAYLOAD`: the 14-byte calibration payload; OPEN (R7, D27). Log entry 8. -/
opaque Config.calPayload : CalPayload

/-- `P_KS`: the opaque key-schedule generator, pure and total, from the reversed seed and key to the feedback table
and the substitution box; OPEN (R7, D28). Log entry 8. -/
opaque Config.keySchedule : Seed → Key → Table × Table

/-- The streaming collaborator's replies where nothing fixes them: a free draw in `NONE | some Buf6` for each ask of a run
(R225, D30), numbered by the asks before it. Log entry 10. -/
opaque Config.hookReply : Nat → Option Buf6

/-- `P_MID`: the mid-scale default of the five axes. DESIGN CHOICE of the spec (D18), log entry 9. -/
def Config.mid : Byte := 0x80

/-- `P_STATE_RESET`: the addressed register at reset. DESIGN CHOICE of the spec (D14), log entry 9. -/
def Config.stateReset : Byte := 0x00

end Sys2Proof
end

