-- ==== Sys2Proof/Syntax.lean ====
section
/-! DEFINITION. The operations of the block (R80), one constructor of `Instr` per row of the opcode table, and what
reaches the block from outside before it is decoded: transport events and application calls (R81, R83, R86). -/

namespace Sys2Proof

/-- The five 8-bit axes of the controller input (R37). -/
inductive Axis where
  | sx | sy | accelX | accelY | accelZ
deriving DecidableEq, Repr

/-- The 13 buttons and the accessory-ready flag (R37). -/
inductive Flag where
  | r | zr | minus | home | plus | z | b | y | a | x | c | left | up | accessoryReady
deriving DecidableEq, Repr

/-- The operands of SET_INPUT: a byte for an axis, a bit for a flag (R86, R204). -/
inductive InputWrite where
  | axis (f : Axis) (v : Byte)
  | flag (f : Flag) (v : Bool)
deriving DecidableEq, Repr

/-- ControllerInputState (R37): five axes and fourteen flags; 1 means pressed. -/
structure Input where
  sx : Byte
  sy : Byte
  accelX : Byte
  accelY : Byte
  accelZ : Byte
  r : Bool
  zr : Bool
  minus : Bool
  home : Bool
  plus : Bool
  z : Bool
  b : Bool
  y : Bool
  a : Bool
  x : Bool
  c : Bool
  left : Bool
  up : Bool
  accessoryReady : Bool
deriving DecidableEq, Repr

/-- The operations of the block, one per row of `spec/opcode_table.json` (R80). -/
inductive Instr where
  /-- WR_ADDR: record the addressed register (R141). -/
  | wrAddr (a : Byte)
  /-- WR_DATA: store 1 to 7 data bytes from address `a` on (R143). -/
  | wrData (a : Byte) (d : List Byte)
  /-- RD_REPORT: return the active report (R172). -/
  | rdReport
  /-- RD_ID: return the identification block (R174). -/
  | rdId
  /-- RD_CAL: return one half of a calibration copy (R176). -/
  | rdCal
  /-- RD_BLOCK: return an 8-byte slice (R177). -/
  | rdBlock
  /-- RF_GET: the application reads one cell (R100). -/
  | rfGet (a : Byte)
  /-- SET_INPUT: the application updates one input field (R204). -/
  | setInput (u : InputWrite)
  /-- ENCODE: the application packs the input into a report (R200). -/
  | encode
  /-- BUF_POKE: the application writes one byte of the active buffer (R220). -/
  | bufPoke (i : Nat) (v : Byte)
  /-- BUF_SWAP: the application exchanges the active buffer (R222). -/
  | bufSwap (b : Buf6)
  /-- REG_WRITE_HOOK: register or remove the write-notification collaborator (R226). -/
  | regWriteHook (r : Bool)
  /-- REG_STREAM_HOOK: register or remove the streaming collaborator (R227). -/
  | regStreamHook (r : Bool)
  /-- STARTUP: power-on initialisation (R270). -/
  | startup
deriving DecidableEq, Repr

/-- Why an input is refused. The first six are the names of rule R243; the last three are the model's own, for terms
the spec gives no form (log entry 13). -/
inductive RefuseReason where
  /-- A write event with 8 or more data bytes (R82, R243). -/
  | writeTooLong
  /-- BUF_POKE with an index above 5 (R220, R243). -/
  | pokeIndex
  /-- The application writes RF after STARTUP (R102, R243). -/
  | appRegisterWrite
  /-- An address above 0xFF, or RF_SETRANGE past 0xFF (R100, R103, R243). -/
  | addressRange
  /-- A collaborator calls back into the block (R243, R252). -/
  | reentrant
  /-- Any event or operation before STARTUP completes (R243, R271). -/
  | beforeStartup
  /-- A write event with no byte at all, or WR_DATA with no data byte: R81 has none. DESIGN CHOICE, log entry 13. -/
  | emptyWrite
  /-- A read operation that the stored `state` does not select: R83 has none. DESIGN CHOICE, log entry 13. -/
  | notSelected
  /-- An application call whose arguments are outside the operand types of R86. DESIGN CHOICE, log entry 13. -/
  | badArguments
deriving DecidableEq, Repr

/-- The application's calls by name (R86), with the two register-file writes it may not make (R102). -/
inductive AppOp where
  | rfGet
  | rfSet
  | rfSetRange
  | setAxis (f : Axis)
  | setFlag (f : Flag)
  | encode
  | bufPoke
  | bufSwap
  | regWriteHook
  | regStreamHook
  | startup
deriving DecidableEq, Repr

/-- What the decoder is given: the byte string of a write event (R81), a read event (R83), or an application call
with its arguments as wide integers (R86, R100). -/
inductive Frame where
  | write (bytes : List Byte)
  | read
  | call (op : AppOp) (args : List Nat)
deriving DecidableEq, Repr

/-- Where the streaming collaborator's reply comes from (R225, D30): the input fixes it (`R ~ some B`, `R ~ NONE` of R90),
or it is drawn at the ask. -/
inductive Reply where
  | given (reply : Option Buf6)
  | draw
deriving DecidableEq, Repr

/-- What a collaborator does if the event calls it: the streaming collaborator's reply (R225), and whether it tries to
call back into the block (R243, R252). -/
structure Collab where
  reply : Reply
  callsBack : Bool
deriving DecidableEq, Repr

/-- A collaborator that replies NONE and does not call back. -/
def Collab.silent : Collab := ⟨.given none, false⟩

/-- A collaborator about which the input says nothing: its reply is drawn at the ask (R225). Log entry 10. -/
def Collab.free : Collab := ⟨.draw, false⟩

/-- A transport event (R81, R83), with what a collaborator called in it does. -/
inductive Event where
  | write (bytes : List Byte) (collab : Collab)
  | read (collab : Collab)
deriving DecidableEq, Repr

/-- An application call (R86). -/
structure Call where
  op : AppOp
  args : List Nat
deriving DecidableEq, Repr

/-- The two agents (R249, R250): the event context and the application. -/
inductive Agent where
  | ev
  | app
deriving DecidableEq, Repr

end Sys2Proof
end

