-- ==== Sys2Proof/WellFormed.lean ====
section
/-! DEFINITION. Which terms of `Instr` are operations of the block: WR_DATA has 1 to 7 data bytes (R81, R82) and
BUF_POKE an index 0 to 5 (R86). Every other operand type holds only legal values (R88). -/

namespace Sys2Proof

/-- The term is an operation the spec gives a form (R81, R86, R88). -/
def Instr.wellFormed : Instr → Bool
  | .wrAddr _ => true
  | .wrData _ d => decide (1 ≤ d.length) && decide (d.length ≤ 7)
  | .rdReport => true
  | .rdId => true
  | .rdCal => true
  | .rdBlock => true
  | .rfGet _ => true
  | .setInput _ => true
  | .encode => true
  | .bufPoke i _ => decide (i ≤ 5)
  | .bufSwap _ => true
  | .regWriteHook _ => true
  | .regStreamHook _ => true
  | .startup => true

end Sys2Proof
end

