-- ==== Sys2Proof/Decode.lean ====
section
/-! DEFINITION. Decoding (R81-R83, R86, R89): write events by their data count, read events by the stored `state`,
application calls by name; total, rejecting by name. Then the encoder, and the reading of the opcode table's words. -/

namespace Sys2Proof

/-- A write event's byte string, decoded by its data count N alone (R82, R140). -/
def decodeWrite : List Byte → Except RefuseReason Instr
  | [] => .error .emptyWrite
  | a :: d =>
    if d.length = 0 then .ok (.wrAddr a)
    else if d.length ≤ 7 then .ok (.wrData a d)
    else .error .writeTooLong

/-- A row of the read-selection table (R83): it matches when `state & mask = pattern`. -/
structure ReadRow where
  pattern : Byte
  mask : Byte
  op : Instr
deriving DecidableEq, Repr

/-- The read-selection table of R83, in its priority order. -/
def readTable : List ReadRow :=
  [⟨0x00, 0xFF, .rdReport⟩, ⟨0xFA, 0xFF, .rdId⟩, ⟨0x20, 0xEF, .rdCal⟩, ⟨0x00, 0x00, .rdBlock⟩]

/-- The first row that matches; the last row of R83's table matches everything. -/
def firstMatch (st : Byte) : List ReadRow → Instr
  | [] => .rdBlock
  | row :: rows => if st &&& row.mask = row.pattern then row.op else firstMatch st rows

/-- The read operation the stored `state` selects (R83, R170). -/
def selectRead (st : Byte) : Instr := firstMatch st readTable

/-- An argument as a byte, if it is one. -/
def byteArg (n : Nat) : Option Byte :=
  if n < 256 then some (BitVec.ofNat 8 n) else none

/-- An argument as a bit, if it is one. -/
def bitArg : Nat → Option Bool
  | 0 => some false
  | 1 => some true
  | _ => none

/-- RF_GET's argument; an address above 0xFF is refused as AddressRange (R100). -/
def decodeRfGet : List Nat → Except RefuseReason Instr
  | [a] =>
    match byteArg a with
    | some b => .ok (.rfGet b)
    | none => .error .addressRange
  | _ => .error .badArguments

/-- SET_INPUT of an axis: one byte (R204). -/
def decodeSetAxis (f : Axis) : List Nat → Except RefuseReason Instr
  | [v] =>
    match byteArg v with
    | some b => .ok (.setInput (.axis f b))
    | none => .error .badArguments
  | _ => .error .badArguments

/-- SET_INPUT of a flag: one bit (R204). -/
def decodeSetFlag (f : Flag) : List Nat → Except RefuseReason Instr
  | [v] =>
    match bitArg v with
    | some b => .ok (.setInput (.flag f b))
    | none => .error .badArguments
  | _ => .error .badArguments

/-- BUF_POKE's arguments; an index above 5 is refused as PokeIndex (R86, R220), also where the value is no byte: R243
orders no two refusals, and the index goes before the value. DESIGN CHOICE, log entry 13. -/
def decodeBufPoke : List Nat → Except RefuseReason Instr
  | [i, v] =>
    if 5 < i then .error .pokeIndex
    else
      match byteArg v with
      | some b => .ok (.bufPoke i b)
      | none => .error .badArguments
  | _ => .error .badArguments

/-- BUF_SWAP's argument: six bytes (R222). -/
def decodeBufSwap : List Nat → Except RefuseReason Instr
  | [n0, n1, n2, n3, n4, n5] =>
    match byteArg n0, byteArg n1, byteArg n2, byteArg n3, byteArg n4, byteArg n5 with
    | some b0, some b1, some b2, some b3, some b4, some b5 => .ok (.bufSwap #v[b0, b1, b2, b3, b4, b5])
    | _, _, _, _, _, _ => .error .badArguments
  | _ => .error .badArguments

/-- A call whose one argument is a bit (R226, R227). -/
def decodeBit (op : Bool → Instr) : List Nat → Except RefuseReason Instr
  | [v] =>
    match bitArg v with
    | some b => .ok (op b)
    | none => .error .badArguments
  | _ => .error .badArguments

/-- A call without arguments. -/
def decodeNoArgs (i : Instr) : List Nat → Except RefuseReason Instr
  | [] => .ok i
  | _ => .error .badArguments

/-- An application call (R86). The two register-file writes are refused whatever their arguments (R102). -/
def decodeCall : AppOp → List Nat → Except RefuseReason Instr
  | .rfGet, args => decodeRfGet args
  | .rfSet, _ => .error .appRegisterWrite
  | .rfSetRange, _ => .error .appRegisterWrite
  | .setAxis f, args => decodeSetAxis f args
  | .setFlag f, args => decodeSetFlag f args
  | .encode, args => decodeNoArgs .encode args
  | .bufPoke, args => decodeBufPoke args
  | .bufSwap, args => decodeBufSwap args
  | .regWriteHook, args => decodeBit .regWriteHook args
  | .regStreamHook, args => decodeBit .regStreamHook args
  | .startup, args => decodeNoArgs .startup args

/-- The decoder, total on any frame: `st` is the stored `state`, which selects among the reads (R83) and plays no
part elsewhere (R89). -/
def decode (st : Byte) : Frame → Except RefuseReason Instr
  | .write bytes => decodeWrite bytes
  | .read => .ok (selectRead st)
  | .call op args => decodeCall op args

/-- The operation is a read event's (R80). -/
def Instr.isRead : Instr → Bool
  | .wrAddr _ => false
  | .wrData _ _ => false
  | .rdReport => true
  | .rdId => true
  | .rdCal => true
  | .rdBlock => true
  | .rfGet _ => false
  | .setInput _ => false
  | .encode => false
  | .bufPoke _ _ => false
  | .bufSwap _ => false
  | .regWriteHook _ => false
  | .regStreamHook _ => false
  | .startup => false

/-- The agent whose step the operation is (R249). -/
def Instr.agent : Instr → Agent
  | .wrAddr _ => .ev
  | .wrData _ _ => .ev
  | .rdReport => .ev
  | .rdId => .ev
  | .rdCal => .ev
  | .rdBlock => .ev
  | .rfGet _ => .app
  | .setInput _ => .app
  | .encode => .app
  | .bufPoke _ _ => .app
  | .bufSwap _ => .app
  | .regWriteHook _ => .app
  | .regStreamHook _ => .app
  | .startup => .app

/-- The stored `state` under which the operation can come from its frame: the selected one for a read, any other
for the rest (R83, R89). -/
def Instr.selectable (st : Byte) (i : Instr) : Bool := !i.isRead || decide (selectRead st = i)

/-- SET_INPUT as a call (R86). -/
def encodeInput : InputWrite → Frame
  | .axis f v => .call (.setAxis f) [v.toNat]
  | .flag f v => .call (.setFlag f) [v.toNat]

/-- The frame of an operation: a write event's byte string (R81), a read event (R83), or a call (R86). -/
def encode : Instr → Frame
  | .wrAddr a => .write [a]
  | .wrData a d => .write (a :: d)
  | .rdReport => .read
  | .rdId => .read
  | .rdCal => .read
  | .rdBlock => .read
  | .rfGet a => .call .rfGet [a.toNat]
  | .setInput u => encodeInput u
  | .encode => .call .encode []
  | .bufPoke i v => .call .bufPoke [i, v.toNat]
  | .bufSwap b => .call .bufSwap (b.toList.map BitVec.toNat)
  | .regWriteHook r => .call .regWriteHook [r.toNat]
  | .regStreamHook r => .call .regStreamHook [r.toNat]
  | .startup => .call .startup []

/-- The frame of a transport event. -/
def Event.frame : Event → Frame
  | .write bytes _ => .write bytes
  | .read _ => .read

/-- What a collaborator called in the event does. -/
def Event.collab : Event → Collab
  | .write _ c => c
  | .read c => c

/-- The frame of an application call. -/
def Call.frame (c : Call) : Frame := .call c.op c.args

/-- The first `n` bytes of a table word, the first in its lowest eight bits. -/
def tableBytes : Nat → Nat → List Byte
  | 0, _ => []
  | n + 1, w => BitVec.ofNat 8 w :: tableBytes n (w / 256)

/-- The event that a word of the opcode table stands for. The table's match and mask are on a row's SELECTING byte
(R92): 8 bits are the stored `state` of a read event (R83), fewer are the data count N of a write event (R82), more
are the byte string of a write event (R81). The first part is the `state` the word selects by, if it is one.
DESIGN CHOICE, log entry 17. -/
def tableEvent (nbits w : Nat) (c : Collab) : Option Byte × Event :=
  if nbits < 8 then (none, .write (0 :: List.replicate (w % 8) 0) c)
  else if nbits = 8 then (some (BitVec.ofNat 8 w), .read c)
  else (none, .write (tableBytes (nbits / 8) w) c)

/-- The instruction the decoder reads from a word of the opcode table (log entry 17). -/
def decodeTableWord (nbits w : Nat) : Option Instr :=
  match tableEvent nbits w Collab.silent with
  | (st, e) => (decode (st.getD Config.stateReset) e.frame).toOption

end Sys2Proof
end

