-- ==== Sys2Proof/Machine/Memory.lean ====
section
/-! DEFINITION. The register space RF (R22, R60): 256 byte cells, held as a list of address and byte pairs in one
canonical form, and the calibration block that startup stores there (R104). -/

namespace Sys2Proof.Machine

/-- The sum of the 14 payload bytes, reduced mod 256 (R104). -/
def calSum (p : CalPayload) : Byte := BitVec.ofNat 8 (p.toList.map BitVec.toNat).sum

/-- `CALBLOCK(P)`: the payload and its two checksum bytes (R25, R104). -/
def calBlock (p : CalPayload) : List Byte := p.toList ++ [calSum p + 0x55, calSum p + 0xAA]

/-- What cell `n` holds right after STARTUP (R41): the two calibration copies, the identification block, 0xFF
elsewhere. It is also what a cell that the memory does not list reads as (log entry 5). -/
def resetByte (n : Nat) : Byte :=
  if n < 0x20 then 0xFF
  else if n < 0x40 then (calBlock Config.calPayload).getD (n % 16) 0xFF
  else if n < 0xFA then 0xFF
  else Config.idBlock.toList.getD (n - 0xFA) 0xFF

/-- RF as data: the cells that differ from their reset contents, addresses strictly rising (log entry 5). -/
abbrev Memory := List Host.Cell

/-- The canonical form: addresses strictly rising, each below 256, and no entry equal to what an unlisted address
reads as. -/
abbrev Memory.wf (m : Memory) : Prop :=
  m.Pairwise (fun c d => c.1 < d.1) ∧ ∀ c ∈ m, c.1 < 256 ∧ c.2 ≠ resetByte c.1

/-- The byte listed at `n`, else the reset contents. -/
def Memory.lookup (n : Nat) : Memory → Byte
  | [] => resetByte n
  | c :: m => if c.1 = n then c.2 else Memory.lookup n m

/-- The memory without an entry at `n`. -/
def Memory.erase (n : Nat) : Memory → Memory
  | [] => []
  | c :: m => if c.1 = n then Memory.erase n m else c :: Memory.erase n m

/-- The memory with an entry put before the first higher address. -/
def Memory.insert (n : Nat) (v : Byte) : Memory → Memory
  | [] => [(n, v)]
  | c :: m => if n < c.1 then (n, v) :: c :: m else c :: Memory.insert n v m

/-- `RF[a]` (R9, R100): no cell is write-only and none is decrypted or encrypted here. -/
def Memory.read (m : Memory) (a : Byte) : Byte := Memory.lookup a.toNat m

/-- `RF[a] <- v` (R9, R101), keeping the canonical form: a cell at its reset contents is not listed. -/
def Memory.write (m : Memory) (a v : Byte) : Memory :=
  if v = resetByte a.toNat then Memory.erase a.toNat m
  else Memory.insert a.toNat v (Memory.erase a.toNat m)

/-- `MemRead(a, n)` (R9): the address wraps at 256 (R63). -/
def Memory.readRange (m : Memory) (a : Byte) : Nat → List Byte
  | 0 => []
  | n + 1 => m.read a :: Memory.readRange m (a + 1) n

/-- Writes a run of cells upwards from `a`. -/
def Memory.writeRange (a : Byte) : List Byte → Memory → Memory
  | [], m => m
  | v :: vs, m => Memory.writeRange (a + 1) vs (m.write a v)

/-- `RF_SETRANGE a, bytes` (R103): unlike the dispatchers it does not wrap; a run past 0xFF is refused. -/
def Memory.setRange (a : Byte) (bytes : List Byte) (m : Memory) : Except RefuseReason Memory :=
  if 256 < a.toNat + bytes.length then .error .addressRange else .ok (Memory.writeRange a bytes m)

/-- "Startup fills all 256 bytes with 0xFF" (R270). -/
def Memory.fill (m : Memory) : Memory := Memory.writeRange 0x00 (List.replicate 256 0xFF) m

/-- STARTUP's writes to RF, in the order of R270: the fill, the identification block, both calibration copies. -/
def Memory.startup (m : Memory) : Except RefuseReason Memory :=
  match Memory.setRange 0xFA Config.idBlock.toList m.fill with
  | .error r => .error r
  | .ok m1 =>
    match Memory.setRange 0x20 (calBlock Config.calPayload) m1 with
    | .error r => .error r
    | .ok m2 => Memory.setRange 0x30 (calBlock Config.calPayload) m2

end Sys2Proof.Machine
end

