-- ==== Sys2Proof/Machine/ReportEncoder.lean ====
section
/-! DEFINITION. The pure report encoder (R200-R203), the controller input's reset values (R37) and the update of one
input field (R204). -/

namespace Sys2Proof

/-- The default input (R37): every axis at `P_MID`, every button released, the accessory flag 0 (D36). -/
def Input.default : Input :=
  { sx := Config.mid, sy := Config.mid, accelX := Config.mid, accelY := Config.mid, accelZ := Config.mid,
    r := false, zr := false, minus := false, home := false, plus := false, z := false, b := false, y := false,
    a := false, x := false, c := false, left := false, up := false, accessoryReady := false }

/-- `inp.f <- v` for an axis (R204). -/
def Input.setAxis (f : Axis) (v : Byte) (i : Input) : Input :=
  match f with
  | .sx => { i with sx := v }
  | .sy => { i with sy := v }
  | .accelX => { i with accelX := v }
  | .accelY => { i with accelY := v }
  | .accelZ => { i with accelZ := v }

/-- `inp.f <- v` for a flag (R204). -/
def Input.setFlag (f : Flag) (v : Bool) (i : Input) : Input :=
  match f with
  | .r => { i with r := v }
  | .zr => { i with zr := v }
  | .minus => { i with minus := v }
  | .home => { i with home := v }
  | .plus => { i with plus := v }
  | .z => { i with z := v }
  | .b => { i with b := v }
  | .y => { i with y := v }
  | .a => { i with a := v }
  | .x => { i with x := v }
  | .c => { i with c := v }
  | .left => { i with left := v }
  | .up => { i with up := v }
  | .accessoryReady => { i with accessoryReady := v }

/-- `inp.f <- v` (R204). -/
def Input.set (u : InputWrite) (i : Input) : Input :=
  match u with
  | .axis f v => Input.setAxis f v i
  | .flag f v => Input.setFlag f v i

/-- The current value of an axis. -/
def Input.axis (f : Axis) (i : Input) : Byte :=
  match f with
  | .sx => i.sx
  | .sy => i.sy
  | .accelX => i.accelX
  | .accelY => i.accelY
  | .accelZ => i.accelZ

/-- The current value of a flag. -/
def Input.flag (f : Flag) (i : Input) : Bool :=
  match f with
  | .r => i.r
  | .zr => i.zr
  | .minus => i.minus
  | .home => i.home
  | .plus => i.plus
  | .z => i.z
  | .b => i.b
  | .y => i.y
  | .a => i.a
  | .x => i.x
  | .c => i.c
  | .left => i.left
  | .up => i.up
  | .accessoryReady => i.accessoryReady

end Sys2Proof

namespace Sys2Proof.Machine

/-- `zext_8`: a flag as the byte 0x00 or 0x01 (R9). -/
def flagByte (b : Bool) : Byte := if b then 0x01 else 0x00

/-- Report byte 4 (R200): R and ZR keep their sense, the XOR inverts the six bits below them (R202). -/
def reportByte4 (i : Input) : Byte :=
  ((flagByte i.r <<< 7) ||| (flagByte i.zr <<< 6) ||| (flagByte i.accessoryReady <<< 5) ||| (flagByte i.minus <<< 4)
    ||| (flagByte i.home <<< 3) ||| (flagByte i.plus <<< 2) ||| (i.accelZ &&& (0x02 : Byte))) ^^^ (0x3F : Byte)

/-- Report byte 5 (R200): eight buttons, all inverted (R202). -/
def reportByte5 (i : Input) : Byte :=
  ~~~((flagByte i.z <<< 7) ||| (flagByte i.b <<< 6) ||| (flagByte i.y <<< 5) ||| (flagByte i.a <<< 4)
    ||| (flagByte i.x <<< 3) ||| (flagByte i.c <<< 2) ||| (flagByte i.left <<< 1) ||| flagByte i.up)

/-- `ENCODE`'s six bytes (R200); every flag is shifted as a byte and no shift loses a set bit. -/
def encodeReport (i : Input) : Buf6 :=
  #v[(i.accelZ &&& (0xC0 : Byte)) ||| (i.sx >>> 2),
    ((i.accelZ &&& (0x30 : Byte)) <<< 2) ||| (i.sy >>> 2),
    ((i.accelZ &&& (0x08 : Byte)) <<< 4) ||| (i.accelX >>> 1),
    ((i.accelZ &&& (0x04 : Byte)) <<< 5) ||| (i.accelY >>> 1),
    reportByte4 i,
    reportByte5 i]

/-- `P_BUF_RESET`: the active buffer at reset, the encoded default input (R36, D19). Log entry 9. -/
def bufReset : Buf6 := encodeReport Input.default

end Sys2Proof.Machine
end

