-- ==== Sys2Proof/Machine/State.lean ====
section
/-! DEFINITION. The block's state (R20) as plain data, with the model's own fields beside it, the reasons a step can
stop, and the state after STARTUP (R41). -/

namespace Sys2Proof.Machine

/-- One observable output (R257). -/
inductive Output where
  /-- The response of a read event, element 0 first on the wire (R62, R171). -/
  | response (bytes : List Byte)
  /-- `Notify(a, N)` to the write-notification collaborator (R146). -/
  | notify (a : Byte) (n : Nat)
  /-- The plaintext buffer passed to the streaming collaborator (R172, R224). -/
  | hookAsked (sent : Buf6)
  /-- RF_GET's return value (R100). -/
  | rfGetResult (v : Byte)
  /-- ENCODE's return value (R200). -/
  | encodeResult (b : Buf6)
  /-- BUF_SWAP's return value: the buffer active before it (R222). -/
  | swapResult (old : Buf6)
  /-- An input was refused (R243). -/
  | refusal (r : RefuseReason)
deriving DecidableEq, Repr

/-- Why the machine stops with a fault: never. The block raises no exception and has no error state (R240, R242), so
the type has no constructor. -/
inductive Fault where
deriving DecidableEq, Repr

/-- Why the machine gives an instruction no meaning. Inputs the spec refuses (R243) do not come here: they set the
`refused` mark and the machine goes on (log entry 1). -/
inductive Refusal where
  /-- An arm of `exec` without a meaning; no arm raises it now. Safe: nothing can be proved of a step that ends so. -/
  | notModelled (mnemonic : String)
deriving DecidableEq, Repr

/-- The state of the block: the record of R20, then the model's own fields (log entries 3, 6, 10, 11). -/
structure State where
  /-- The register space (R22). -/
  rf : Memory
  /-- The addressed register (R31). -/
  state : Byte
  /-- The register of the previous read, or NONE: the repeat marker, or no read yet (R32). -/
  lastState : Option Byte
  /-- The offset of the last slice from its register (R32). -/
  blockOffset : Byte
  /-- The feedback table (R33). -/
  fb : Table
  /-- The substitution box (R33). -/
  sb : Table
  /-- The reversed seed of the last key setup (R33). -/
  seedArr : Seed
  /-- The reversed key of the last key setup (R33). -/
  keyArr : Key
  /-- The key schedule is valid: the block's only status flag (R34). -/
  ready : Bool
  /-- The active report buffer (R36). -/
  active : Buf6
  /-- The controller input (R37). -/
  inp : Input
  /-- The write-notification collaborator is registered (R38). -/
  writeHookReg : Bool
  /-- The streaming collaborator is registered (R38). -/
  streamHookReg : Bool
  /-- The refusal mark (R20, R243): set by every refusal, never cleared. -/
  refused : Bool
  /-- Model's own: STARTUP has completed (R243, R271). -/
  started : Bool
  /-- Model's own: the transport events not yet run, oldest first (R245). -/
  events : List Event
  /-- Model's own: the application operations not yet run, oldest first (R257). -/
  calls : List Call
  /-- Model's own: which agent steps next, oldest first (R250). -/
  turns : List Agent
  /-- Model's own: what a collaborator called in the event in progress does (R225, R252). -/
  collab : Collab
  /-- Model's own: how many times the streaming collaborator has been asked, the number of its next free draw (R225). -/
  draws : Nat
  /-- Model's own: the observable outputs so far, oldest first (R257). -/
  trace : List Output
deriving DecidableEq, Repr

/-- The block right after STARTUP (R41), with no event and no operation pending. -/
def State.reset : State :=
  { rf := []
    state := Config.stateReset
    lastState := none
    blockOffset := 0x00
    fb := Vector.replicate 8 0x00
    sb := Vector.replicate 8 0x00
    seedArr := Vector.replicate 10 0x00
    keyArr := Vector.replicate 6 0x00
    ready := false
    active := bufReset
    inp := Input.default
    writeHookReg := false
    streamHookReg := false
    refused := false
    started := true
    events := []
    calls := []
    turns := []
    collab := Collab.silent
    draws := 0
    trace := [] }

/-- A block before STARTUP (R271). The spec gives its contents no values, so these are one choice among all
(DESIGN CHOICE, log entry 4), but for the refusal mark, which nothing has set (log entry 2); statements quantify over
every state with `started` false instead. -/
def State.powerOn : State := { State.reset with started := false }

end Sys2Proof.Machine
end

