-- ==== Sys2Proof/Machine/Operands.lean ====
section
/-! DEFINITION. Operand assembly (R85): the addresses the block gives meaning to, the write cursor, the slice start,
the cipher index and the reversed seed and key of a key setup. -/

namespace Sys2Proof.Machine

/-- The report register: reads with `state` here are RD_REPORT (R83). -/
def reportReg : Byte := 0x00

/-- The identification register and the start of its block (R28, R83). -/
def idReg : Byte := 0xFA

/-- The cipher-control cell (R27). -/
def cipherControl : Byte := 0xF0

/-- The stored value that requests the cipher (R27, R87). -/
def cipherEnable : Byte := 0xAA

/-- The raw value that force-disables the cipher (R27, R87). -/
def cipherDisable : Byte := 0x55

/-- The write cursor at which a key setup fires (R87, R145). -/
def keySetupCursor : Byte := 0x50

/-- The write cursor of data byte `i` of an event at `a`: it wraps mod 256 (R85, R142). -/
def writeCursor (a : Byte) (i : Nat) : Byte := a + BitVec.ofNat 8 i

/-- The slice start of RD_CAL and RD_BLOCK (R85). -/
def sliceStart (st off : Byte) : Byte := st + off

/-- The table entry of the byte at address `x`: index `x mod 8` (R85, R132). -/
def cipherEntry (t : Table) (x : Byte) : Byte := t[x.toNat % 8]'(Nat.mod_lt _ (by decide))

/-- `rev(RF[0x40..0x49])` (R26, R126). -/
def reversedSeed (m : Memory) : Seed :=
  #v[m.read 0x49, m.read 0x48, m.read 0x47, m.read 0x46, m.read 0x45, m.read 0x44, m.read 0x43, m.read 0x42,
    m.read 0x41, m.read 0x40]

/-- `rev(RF[0x4A..0x4F])` (R26, R126). -/
def reversedKey (m : Memory) : Key :=
  #v[m.read 0x4F, m.read 0x4E, m.read 0x4D, m.read 0x4C, m.read 0x4B, m.read 0x4A]

/-- The slice step of repeated reads and the offset of the second calibration half (R176, R177). -/
def sliceStep : Byte := 0x08

/-- RD_CAL's new read cursor (R176, R178). -/
def calCursor (st : Byte) (last : Option Byte) : Option Byte × Byte :=
  if last = some st then (none, sliceStep) else (some st, 0x00)

/-- RD_BLOCK's new read cursor (R177, R178). -/
def blockCursor (st : Byte) (last : Option Byte) (off : Byte) : Option Byte × Byte :=
  if last = some st then (some st, off + sliceStep) else (some st, 0x00)

end Sys2Proof.Machine
end

