-- ==== Sys2Proof/Machine/Flags.lean ====
section
/-! DEFINITION. The block's one status flag, `ready` (R34), and the condition computed from it (R35, R120). -/

namespace Sys2Proof.Machine

/-- `cipherActive()` (R120): level-triggered on RF[0xF0] and `ready`; nothing latches it. -/
def cipherActive (s : State) : Bool := decide (s.rf.read cipherControl = cipherEnable) && s.ready

/-- The force-disable test on the cursor and the RAW byte (R128, R144). -/
def isForceDisable (cur raw : Byte) : Bool := decide (cur = cipherControl) && decide (raw = cipherDisable)

/-- `ready` after the force-disable test of one data byte (R128). -/
def readyAfterTest (cur raw : Byte) (ready : Bool) : Bool := ready && !isForceDisable cur raw

end Sys2Proof.Machine
end

