-- ==== Sys2Proof/Machine/Ops.lean ====
section
/-! DEFINITION. The shared operations of the block: outputs and refusals, the cipher (R122, R124, R171), the effects
inside a data write (R126, R128, R143), the notification and the streaming hook (R146, R172), and the checks every
operation makes. The block takes no exception and returns from none (R240, R248): refusing an input outside the
contract (R243) is the one shared operation in that place. -/

namespace Sys2Proof.Machine

/-- The outcome of an operation. -/
abbrev Result := Host.Outcome State Fault Refusal

/-- Adds an observable output (R257). -/
def State.emit (o : Output) (s : State) : State := { s with trace := s.trace ++ [o] }

/-- `refuse(reason)` (R9, R243): the mark is set and never cleared by it; the refused input has no other effect
(DESIGN CHOICE, log entry 1). -/
def State.refuse (r : RefuseReason) (s : State) : State :=
  { s with refused := true, trace := s.trace ++ [.refusal r] }

/-- `RF[a] <- v` (R101). -/
def State.writeCell (a v : Byte) (s : State) : State := { s with rf := s.rf.write a v }

/-- The read cursor's two parts (R32). -/
def State.setCursor (c : Option Byte × Byte) (s : State) : State :=
  { s with lastState := c.1, blockOffset := c.2 }

/-- `active <- B` (R36). -/
def State.setActive (b : Buf6) (s : State) : State := { s with active := b }

/-- Refuses an input; before STARTUP every input is refused as BeforeStartup, whatever else is wrong with it
(R243, R271). -/
def refuseWith (r : RefuseReason) (s : State) : Result :=
  .next (s.refuse (if s.started then r else .beforeStartup))

/-- The operation's next state `t`, or the BeforeStartup refusal (R243, R271). -/
def whenStarted (s t : State) : Result := if s.started then .next t else refuseWith .beforeStartup s

/-- A read operation runs only where the stored `state` selects it (R83, R170); log entry 13. -/
def whenSelected (op : Instr) (s t : State) : Result :=
  if selectRead s.state = op then whenStarted s t else refuseWith .notSelected s

/-- `DECRYPT(c, x)` (R122). -/
def decrypt (fb sb : Table) (c x : Byte) : Byte := (c ^^^ cipherEntry sb x) + cipherEntry fb x

/-- `ENCRYPT(p, x)` (R124). -/
def encrypt (fb sb : Table) (p x : Byte) : Byte := (p - cipherEntry fb x) ^^^ cipherEntry sb x

/-- Every element encrypted with its own address (R124, R171). -/
def encryptFrom (fb sb : Table) (start : Byte) : List Byte → List Byte
  | [] => []
  | p :: ps => encrypt fb sb p start :: encryptFrom fb sb (start + 1) ps

/-- `XFORM(pt, start)` (R171): a transform of the copy being returned. -/
def xform (s : State) (pt : List Byte) (start : Byte) : List Byte :=
  if cipherActive s then encryptFrom s.fb s.sb start pt else pt

/-- Returns `XFORM(pt, start)` to the transport (R171). -/
def State.respond (pt : List Byte) (start : Byte) (s : State) : State := s.emit (.response (xform s pt start))

/-- `KEY_SETUP` (R126): it reads the stored bytes, calls the generator and sets `ready`, whatever RF[0xF0] holds
(R131). -/
def State.keySetup (s : State) : State :=
  { s with
    seedArr := reversedSeed s.rf
    keyArr := reversedKey s.rf
    fb := (Config.keySchedule (reversedSeed s.rf) (reversedKey s.rf)).1
    sb := (Config.keySchedule (reversedSeed s.rf) (reversedKey s.rf)).2
    ready := true }

/-- `FORCE_DISABLE` (R128), for one raw data byte at the cursor. -/
def State.forceDisable (cur raw : Byte) (s : State) : State := { s with ready := readyAfterTest cur raw s.ready }

/-- The value stored for a raw byte at the cursor, after its force-disable test (R123, R143). -/
def storedValue (s : State) (cur raw : Byte) : Byte :=
  if cipherActive s then decrypt s.fb s.sb raw cur else raw

/-- One data byte of WR_DATA, in the order of R144: force-disable test, cipher test, store, advance, key-setup
test. -/
def storeByte (cur raw : Byte) (s : State) : State :=
  let s1 := s.forceDisable cur raw
  let s2 := s1.writeCell cur (storedValue s1 cur raw)
  if cur + 1 = keySetupCursor then s2.keySetup else s2

/-- The data bytes of WR_DATA from the cursor on (R142, R143). -/
def storeBytes (cur : Byte) : List Byte → State → State
  | [], s => s
  | raw :: rest, s => storeBytes (cur + 1) rest (storeByte cur raw s)

/-- A collaborator has been called in this event: if it calls back into the block, the call back is refused
(R243, R252). Log entry 12. -/
def State.collaboratorCalled (s : State) : State := if s.collab.callsBack then s.refuse .reentrant else s

/-- The write notification (R146): once per WR_DATA, after every store, only while the collaborator is registered. -/
def State.notifyWrite (a : Byte) (n : Nat) (s : State) : State :=
  if s.writeHookReg then (s.emit (.notify a n)).collaboratorCalled else s

/-- What the streaming collaborator answers at this ask: what the input fixed, or a free draw that no other ask of the
run gets (R225). Log entry 10. -/
def State.hookAnswer (s : State) : Option Buf6 :=
  match s.collab.reply with
  | .given reply => reply
  | .draw => Config.hookReply s.draws

/-- The collaborator's reply is taken (R172, R224): `some B` becomes active, `NONE` changes nothing; the next ask has the
next draw (R225). -/
def State.takeReply (s : State) : State := { s with active := s.hookAnswer.getD s.active, draws := s.draws + 1 }

/-- The streaming hook (R172, R224): asked with the plaintext just sent, only while the collaborator is registered. -/
def State.askStreamHook (sent : Buf6) (s : State) : State :=
  if s.streamHookReg then (s.emit (.hookAsked sent)).collaboratorCalled.takeReply else s

end Sys2Proof.Machine
end

