-- ==== Sys2Proof/Machine/BufferExchange.lean ====
section
/-! DEFINITION. The buffer exchange (R220-R228): BUF_POKE, BUF_SWAP and the two registrations. -/

namespace Sys2Proof.Machine

/-- BUF_POKE i, v (R220): one byte of the active buffer; an index above 5 is PokeIndex. -/
def execBufPoke (i : Nat) (v : Byte) (s : State) : Result :=
  if 5 < i then refuseWith .pokeIndex s else whenStarted s (s.setActive (s.active.setIfInBounds i v))

/-- BUF_SWAP B (R222): B becomes active and the buffer active before it is returned. -/
def execBufSwap (b : Buf6) (s : State) : Result := whenStarted s ((s.setActive b).emit (.swapResult s.active))

/-- REG_WRITE_HOOK r (R226). -/
def execRegWriteHook (r : Bool) (s : State) : Result := whenStarted s { s with writeHookReg := r }

/-- REG_STREAM_HOOK r (R227). -/
def execRegStreamHook (r : Bool) (s : State) : Result := whenStarted s { s with streamHookReg := r }

end Sys2Proof.Machine
end

