-- ==== Sys2Proof/Machine/ReadDispatch.lean ====
section
/-! DEFINITION. The read dispatcher (R170-R181): the four responses. Each moves the read cursor first, then computes
its response (R171, R246). -/

namespace Sys2Proof.Machine

/-- RD_REPORT (R172): the active buffer, then the streaming hook. -/
def execRdReport (s : State) : Result :=
  let s1 := s.setCursor (some reportReg, 0x00)
  whenSelected .rdReport s ((s1.respond s.active.toList reportReg).askStreamHook s.active)

/-- RD_ID (R174): the identification block, as it stands in RF. -/
def execRdId (s : State) : Result :=
  let s1 := s.setCursor (some idReg, 0x00)
  whenSelected .rdId s (s1.respond (s.rf.readRange idReg 6) idReg)

/-- RD_CAL (R176): one half of a calibration copy, the halves alternating on repeats. -/
def execRdCal (s : State) : Result :=
  let c := calCursor s.state s.lastState
  let start := sliceStart s.state c.2
  whenSelected .rdCal s ((s.setCursor c).respond (s.rf.readRange start 8) start)

/-- RD_BLOCK (R177): an 8-byte slice, the next one on each repeat, wrapping mod 256. -/
def execRdBlock (s : State) : Result :=
  let c := blockCursor s.state s.lastState s.blockOffset
  let start := sliceStart s.state c.2
  whenSelected .rdBlock s ((s.setCursor c).respond (s.rf.readRange start 8) start)

end Sys2Proof.Machine
end

