-- ==== Sys2Proof/Machine/RegisterFile.lean ====
section
/-! DEFINITION. The application's read of the register file (R100). -/

namespace Sys2Proof.Machine

/-- RF_GET a (R100): the stored byte, neither decrypted nor encrypted. -/
def execRfGet (a : Byte) (s : State) : Result := whenStarted s (s.emit (.rfGetResult (s.rf.read a)))

end Sys2Proof.Machine
end

