-- ==== Sys2Proof/Machine/Report.lean ====
section
/-! DEFINITION. The application's report operations: SET_INPUT (R204) and ENCODE (R200). -/

namespace Sys2Proof.Machine

/-- SET_INPUT f, v (R204): one field of `inp`. -/
def execSetInput (u : InputWrite) (s : State) : Result := whenStarted s { s with inp := Input.set u s.inp }

/-- ENCODE (R200): the report of `inp`, returned to the application; `active` is not written. -/
def execEncode (s : State) : Result := whenStarted s (s.emit (.encodeResult (encodeReport s.inp)))

end Sys2Proof.Machine
end

