-- ==== Sys2Proof/Machine/Startup.lean ====
section
/-! DEFINITION. STARTUP, the block's only reset (R270, R271). -/

namespace Sys2Proof.Machine

/-- The writes of R270 after RF: every other piece of the block's state at its reset value. The refusal mark starts at 0
and is never cleared (R20, R243): it is still 0 unless an input was refused before STARTUP, and then it stays (DEDUCED,
log entry 2). The pending inputs, the number of the next draw and
the outputs so far are the model's own and stay (log entry 2). -/
def State.startupWith (m : Memory) (s : State) : State :=
  { State.reset with
    rf := m
    refused := s.refused
    events := s.events
    calls := s.calls
    turns := s.turns
    collab := s.collab
    draws := s.draws
    trace := s.trace }

/-- STARTUP (R270): it runs once, before any other step. A second one would be an application write to RF after
STARTUP and is refused so (R102, R249; log entry 14). -/
def execStartup (s : State) : Result :=
  if s.started then refuseWith .appRegisterWrite s
  else
    match Memory.startup s.rf with
    | .ok m => .next (s.startupWith m)
    | .error r => .next (s.refuse r)

end Sys2Proof.Machine
end

