-- ==== Sys2Proof/Machine/WriteDispatch.lean ====
section
/-! DEFINITION. The write dispatcher (R140-R149): WR_ADDR and WR_DATA. -/

namespace Sys2Proof.Machine

/-- WR_ADDR a (R141): `state` only. -/
def execWrAddr (a : Byte) (s : State) : Result := whenStarted s { s with state := a }

/-- WR_DATA a, d (R143): the bytes through the cipher, then the notification. Eight or more bytes are WriteTooLong
(R82, R140); no byte at all is no WR_DATA (log entry 13). -/
def execWrData (a : Byte) (d : List Byte) (s : State) : Result :=
  if d.length = 0 then refuseWith .emptyWrite s
  else if 7 < d.length then refuseWith .writeTooLong s
  else whenStarted s ((storeBytes a d s).notifyWrite a d.length)

end Sys2Proof.Machine
end

