-- ==== Sys2Proof/Machine/Dispatch.lean ====
section
/-! DEFINITION. One arm per operation of the opcode table (R80). -/

namespace Sys2Proof.Machine

/-- The meaning of an operation. -/
def exec (i : Instr) (s : State) : Host.Outcome State Fault Refusal :=
  match i with
  | .wrAddr a => Sys2Proof.Machine.execWrAddr a s
  | .wrData a d => Sys2Proof.Machine.execWrData a d s
  | .rdReport => Sys2Proof.Machine.execRdReport s
  | .rdId => Sys2Proof.Machine.execRdId s
  | .rdCal => Sys2Proof.Machine.execRdCal s
  | .rdBlock => Sys2Proof.Machine.execRdBlock s
  | .rfGet a => Sys2Proof.Machine.execRfGet a s
  | .setInput u => Sys2Proof.Machine.execSetInput u s
  | .encode => Sys2Proof.Machine.execEncode s
  | .bufPoke j v => Sys2Proof.Machine.execBufPoke j v s
  | .bufSwap b => Sys2Proof.Machine.execBufSwap b s
  | .regWriteHook r => Sys2Proof.Machine.execRegWriteHook r s
  | .regStreamHook r => Sys2Proof.Machine.execRegStreamHook r s
  | .startup => Sys2Proof.Machine.execStartup s

end Sys2Proof.Machine
end

