-- ==== Sys2Proof/Machine/Fetch.lean ====
section
/-! DEFINITION. What runs next (R69, R245, R250): each agent's pending steps, and the turns that say which of the two
moves. The block has no program counter and fetches no instructions (R21, R74); taking the next pending step stands in
that place (log entry 6). -/

namespace Sys2Proof.Machine

/-- The oldest pending transport event, with the state in which it runs: the event and its turn are taken, and its
collaborators are the ones called (R225, R252). -/
def takeEvent (s : State) : Option (Frame × State) :=
  match s.events with
  | [] => none
  | e :: es => some (e.frame, { s with events := es, turns := s.turns.tail, collab := e.collab })

/-- The oldest pending application call, with the state in which it runs; it calls no collaborator. -/
def takeCall (s : State) : Option (Frame × State) :=
  match s.calls with
  | [] => none
  | c :: cs => some (c.frame, { s with calls := cs, turns := s.turns.tail, collab := Collab.silent })

/-- It is the application's turn (R250). With no turn recorded the event context goes first: no event waits for the
application (R245). -/
def appTurn (s : State) : Bool := decide (s.turns.head? = some .app)

/-- The next step of the run: the agent whose turn it is, or the other one if it has nothing pending (R250). -/
def fetch (s : State) : Option (Frame × State) :=
  if appTurn s then (takeCall s).or (takeEvent s) else (takeEvent s).or (takeCall s)

/-- The state with an event put where the next step takes it: first among the pending events, with the event
context's turn first. -/
def State.placeEvent (e : Event) (s : State) : State :=
  { s with events := e :: s.events, turns := .ev :: s.turns }

/-- The state with a word of the opcode table placed as the next step (log entry 17): the event it stands for, and the
stored `state` it selects by, if it is one. A collaborator asked in it replies freely (R225). -/
def State.placeTableWord (nbits w : Nat) (s : State) : State :=
  match tableEvent nbits w Collab.free with
  | (some st, e) => { s.placeEvent e with state := st }
  | (none, e) => s.placeEvent e

end Sys2Proof.Machine
end

