-- ==== Sys2Proof/Machine/Step.lean ====
section
/-! DEFINITION. One step of the block: the next pending transport event or application operation, whole (R10, R69,
R251). -/

namespace Sys2Proof.Machine

/-- A frame decoded under the stored `state` and run; a frame the decoder rejects is refused by its name (R243). -/
def perform (f : Frame) (s : State) : Host.Outcome State Fault Refusal :=
  match decode s.state f with
  | .ok i => exec i s
  | .error r => refuseWith r s

/-- One step. With nothing pending the block waits: it is driven by its two agents alone (R21, R257; log entry 7). -/
def step (s : State) : Host.Outcome State Fault Refusal :=
  match fetch s with
  | some (f, t) => perform f t
  | none => .next s

/-- The state in which a word of the opcode table is the next step (log entry 17). -/
def State.withFetchWord (s : State) (nbits w : Nat) : State := s.placeTableWord nbits w

end Sys2Proof.Machine
end

