-- ==== Sys2Proof/Safety.lean ====
section
/-! DEFINITION. What counts as a safe run, in the terms claims use: every input stayed inside the contract (R243), and
the hazards a program must respect (R275, R276). -/

namespace Sys2Proof.Machine

/-- Nothing outside the contract has been asked of the block (R243). A claim about the hardware is to be read only of
states with this (log entry 1). -/
def State.inContract (s : State) : Bool := !s.refused

/-- A run of `n` steps stays inside the contract. -/
def SafeRun (n : Nat) (s : State) : Prop :=
  ∀ k, k ≤ n → ∀ t, Host.Core.run Sys2Proof.core k s = .next t → t.inContract = true

/-- Hazard H2 (R276): the active schedule is not the one of the seed and key that RF holds. -/
def State.staleSchedule (s : State) : Prop :=
  s.ready = true ∧ (s.seedArr ≠ reversedSeed s.rf ∨ s.keyArr ≠ reversedKey s.rf)

/-- A sequence of operations, each run in the state the one before it left (R69). -/
def execMany : List Instr → State → Result
  | [], s => .next s
  | i :: is, s =>
    match exec i s with
    | .next t => execMany is t
    | .fault r => .fault r
    | .refused r => .refused r

/-- What every step keeps: RF's canonical form; the block offset a multiple of 8 (R32), 0 or 8 at the repeat marker
(R176) and 0 after a read of the report, the identification block or a first calibration half (R175, R176); and, while
`ready`, the tables are the generator's for the stored arrays (R75, R126). -/
def State.Inv (s : State) : Prop :=
  s.rf.wf ∧ s.blockOffset.toNat % 8 = 0 ∧
    (s.lastState = none → s.blockOffset = 0x00 ∨ s.blockOffset = 0x08) ∧
    (∀ r, s.lastState = some r → selectRead r ≠ .rdBlock → s.blockOffset = 0x00) ∧
    (s.ready = true → (s.fb, s.sb) = Config.keySchedule s.seedArr s.keyArr)

/-- Two states that differ at most in the key schedule, and in it only while it is not ready (R33). -/
def SameButIdleSchedule (s t : State) : Prop :=
  t = { s with fb := t.fb, sb := t.sb, seedArr := t.seedArr, keyArr := t.keyArr } ∧ (s.ready = true → t = s)

/-- A byte's bits, bit 7 first, as R201's table lists them. -/
def bitsOf (b : Byte) : List Bool :=
  [b.getLsbD 7, b.getLsbD 6, b.getLsbD 5, b.getLsbD 4, b.getLsbD 3, b.getLsbD 2, b.getLsbD 1, b.getLsbD 0]

/-- The output is an ask of the streaming collaborator (R224). -/
def Output.isAsk : Output → Bool
  | .response _ => false
  | .notify _ _ => false
  | .hookAsked _ => true
  | .rfGetResult _ => false
  | .encodeResult _ => false
  | .swapResult _ => false
  | .refusal _ => false

/-- The outputs a step has added, after the ones there were before (R257). -/
def outputsSince (s t : State) : List Output := t.trace.drop s.trace.length

end Sys2Proof.Machine
end

