-- ==== Sys2Proof/Certificates/Slice0/Obligations.lean ====
section
/-! DEFINITION. The statements for the provers. Rule numbers are those of `spec/`; D<n> is a decision of
`spec/92_eei_decisions.md`, the spec's own choice. A clause that rests on one, or on a choice of the model's, is named
as such. -/

open Sys2Proof Sys2Proof.Machine

/-! ## Encoding -/

/-- Decoding an encoded operation gives it back, with every operand at every value (R81-R83, R86): for a read, under
the stored `state` that selects it. The frames of application calls are the model's (log entry 16). -/
def Obligations.DecodeOfEncodeIsIdentity : Prop :=
  ∀ (st : Byte) (i : Instr), i.wellFormed = true → i.selectable st = true → decode st (encode i) = .ok i

/-- Whatever the decoder accepts is the encoding of the well-formed operation it answers (R81-R83, R86, R88). The frames
of application calls are the model's own layout (DESIGN CHOICE, log entry 16). -/
def Obligations.EncodeOfDecodeIsIdentity : Prop :=
  ∀ (st : Byte) (f : Frame) (i : Instr), decode st f = .ok i →
    encode i = f ∧ i.wellFormed = true ∧ i.selectable st = true

/-- The read-selection table (R83, R170): each read operation is selected exactly by its values of `state`. -/
def Obligations.ReadSelectionByState : Prop :=
  ∀ st : Byte, (selectRead st = .rdReport ↔ st = 0x00) ∧ (selectRead st = .rdId ↔ st = 0xFA) ∧
    (selectRead st = .rdCal ↔ st = 0x20 ∨ st = 0x30) ∧
    (selectRead st = .rdBlock ↔ st ≠ 0x00 ∧ st ≠ 0xFA ∧ st ≠ 0x20 ∧ st ≠ 0x30)

/-- Transport frames of the spec's own examples decode to the operations they stand for (R81, R90,
`95_test_vectors.md`); and so do three application calls, whose frames are the model's own layout and not the spec's
(DESIGN CHOICE, log entry 16). -/
def Obligations.SpecFramesDecode : Prop :=
  decode 0x00 (.write [0x20]) = .ok (.wrAddr 0x20) ∧
    decode 0x00 (.write [0xFE, 0x11, 0x22, 0x33]) = .ok (.wrData 0xFE [0x11, 0x22, 0x33]) ∧
    decode 0x00 .read = .ok .rdReport ∧ decode 0xFA .read = .ok .rdId ∧ decode 0x30 .read = .ok .rdCal ∧
    decode 0x21 .read = .ok .rdBlock ∧ decode 0x00 (.call .rfGet [0x10]) = .ok (.rfGet 0x10) ∧
    decode 0x00 (.call .bufPoke [5, 0xEF]) = .ok (.bufPoke 5 0xEF) ∧
    decode 0x00 (.call (.setFlag .a) [1]) = .ok (.setInput (.flag .a true))

/-! ## The step -/

/-- A pending write event is one step that decodes by its data count N (R140): WR_ADDR, WR_DATA, or the WriteTooLong
refusal. The queues, the turns, that the event goes first with no turn recorded, and so the state it runs in, are the
model's (DESIGN CHOICE, log entry 6; a refusal's form: log entry 1); that an event is one step is decision D25 (log
entry 22). The application's turn with no call pending is `FetchTakesTheOldestByTurn`'s. -/
def Obligations.WriteEventIsOneStepByDataCount : Prop :=
  ∀ (s : State) (a : Byte) (d : List Byte) (c : Collab) (es : List Event),
    s.started = true → s.events = .write (a :: d) c :: es → s.turns.head? ≠ some .app →
    step s =
      let t : State := { s with events := es, turns := s.turns.tail, collab := c }
      if d.length = 0 then exec (.wrAddr a) t
      else if d.length ≤ 7 then exec (.wrData a d) t
      else refuseWith .writeTooLong t

/-- A pending read event is one step that dispatches on `state` and returns its response to the transport (R170). The
queues, the turns, that the event goes first with no turn recorded, and so the state it runs in, are the model's (DESIGN
CHOICE, log entry 6; the trace: log entry 11); that an event is one step is decision D25 (log entry 22). The
application's turn with no call pending is `FetchTakesTheOldestByTurn`'s. -/
def Obligations.ReadEventIsOneStepByState : Prop :=
  ∀ (s : State) (c : Collab) (es : List Event),
    s.started = true → s.events = .read c :: es → s.turns.head? ≠ some .app →
    (step s =
      let t : State := { s with events := es, turns := s.turns.tail, collab := c }
      if s.state = 0x00 then exec .rdReport t
      else if s.state = 0xFA then exec .rdId t
      else if s.state = 0x20 ∨ s.state = 0x30 then exec .rdCal t
      else exec .rdBlock t) ∧
    ∃ (u : State) (bytes : List Byte) (rest : List Output),
      step s = .next u ∧ u.trace = s.trace ++ .response bytes :: rest

/-- A step runs the decoded operation in the state `fetch` leaves, and refuses by name what the decoder rejects. What
`fetch` does is the next statement's. -/
def Obligations.StepRunsTheDecodedOperation : Prop :=
  ∀ (s t : State) (f : Frame), fetch s = some (f, t) →
    (∀ i, decode t.state f = .ok i → i.wellFormed = true → step s = exec i t) ∧
    (∀ r, decode t.state f = .error r → step s = refuseWith r t)

/-- What the next step takes (R245, R250; decision D25, log entry 6): the oldest pending event or the oldest pending
call, by the turn; with no turn recorded the event goes first; an agent with nothing pending gives way; with nothing
pending at all the block waits (log entry 7). -/
def Obligations.FetchTakesTheOldestByTurn : Prop :=
  ∀ (s : State),
    (∀ e es, s.events = e :: es → (s.turns.head? ≠ some .app ∨ s.calls = []) →
      fetch s = some (e.frame, { s with events := es, turns := s.turns.tail, collab := e.collab })) ∧
    (∀ c cs, s.calls = c :: cs → (s.turns.head? = some .app ∨ s.events = []) →
      fetch s = some (c.frame, { s with calls := cs, turns := s.turns.tail, collab := Collab.silent })) ∧
    (s.events = [] → s.calls = [] → fetch s = none ∧ step s = .next s)

/-- Every operation and every step answers a next state: the block raises no exception and never hangs (R240, R242,
R251). Inputs outside the contract set the mark and go on (log entry 1). -/
def Obligations.EveryStepAnswersNext : Prop :=
  (∀ (i : Instr) (s : State), ∃ t, exec i s = .next t) ∧ ∀ s : State, ∃ t, step s = .next t

/-! ## Writes -/

/-- WR_ADDR writes `state` and nothing else (R141; that it leaves the read cursor alone is D4, that it sends no
notification is D12). -/
def Obligations.WrAddrWritesStateOnly : Prop :=
  ∀ (a : Byte) (s : State), s.started = true → exec (.wrAddr a) s = .next { s with state := a }

/-- WR_DATA completes, and data byte `i` is stored at `a +₈ i` (R142, R143, R144, R123): a raw 0x55 at 0xF0 as it is,
any other byte decrypted if the cipher is active in the state the bytes before it left, else raw (D6, D8, D9). -/
def Obligations.WrDataStoresEachByte : Prop :=
  ∀ (a : Byte) (d : List Byte) (s : State), s.started = true → 1 ≤ d.length → d.length ≤ 7 →
    ∃ t, exec (.wrData a d) s = .next t ∧
      ∀ (i : Nat) (h : i < d.length),
        t.rf.read (a + BitVec.ofNat 8 i) =
          let u := storeBytes a (d.take i) s
          let cur := a + BitVec.ofNat 8 i
          if cur = 0xF0 ∧ d[i] = 0x55 then 0x55
          else if u.rf.read 0xF0 = 0xAA ∧ u.ready = true then (d[i] ^^^ cipherEntry u.sb cur) + cipherEntry u.fb cur
          else d[i]

/-- WR_DATA's frame (R39, R143): every cell outside `a +₈ 0 … a +₈ (N-1)` reads as before, and `state` (D13), the read
cursor, `active`, the input, the registrations and the model's pending inputs are unchanged. -/
def Obligations.WrDataFrame : Prop :=
  ∀ (a : Byte) (d : List Byte) (s : State), s.started = true → 1 ≤ d.length → d.length ≤ 7 →
    ∃ t, exec (.wrData a d) s = .next t ∧
      (∀ x, (∀ i, i < d.length → x ≠ writeCursor a i) → t.rf.read x = s.rf.read x) ∧
      t = { s with rf := t.rf, ready := t.ready, fb := t.fb, sb := t.sb, seedArr := t.seedArr, keyArr := t.keyArr,
                   refused := t.refused, trace := t.trace }

/-- WR_DATA's notification (R146; D12): exactly one `Notify(a, N)`, only while the write collaborator is registered,
with N the event's count even where the range wraps. A collaborator that calls back is refused as Reentrant (R243;
log entry 12). -/
def Obligations.WrDataNotification : Prop :=
  ∀ (a : Byte) (d : List Byte) (s : State), s.started = true → 1 ≤ d.length → d.length ≤ 7 →
    ∃ t, exec (.wrData a d) s = .next t ∧
      t.trace = s.trace ++ (if s.writeHookReg = true then
        .notify a d.length :: (if s.collab.callsBack = true then [.refusal .reentrant] else []) else []) ∧
      t.refused = (s.refused || (s.writeHookReg && s.collab.callsBack))

/-- A WR_DATA that stores at 0x4F runs a key setup (R126, R127, R145; D7): the arrays are the reversed seed and key as
stored, the tables are the generator's, and `ready` is 1. -/
def Obligations.KeySetupFiresWhen4FIsStored : Prop :=
  ∀ (a : Byte) (d : List Byte) (s : State), s.started = true → 1 ≤ d.length → d.length ≤ 7 →
    (∃ i, i < d.length ∧ writeCursor a i = 0x4F) →
    ∃ t, exec (.wrData a d) s = .next t ∧
      t.seedArr.toList = (t.rf.readRange 0x40 10).reverse ∧ t.keyArr.toList = (t.rf.readRange 0x4A 6).reverse ∧
      (t.fb, t.sb) = Config.keySchedule t.seedArr t.keyArr ∧ t.ready = true

/-- A WR_DATA that does not store at 0x4F leaves the key schedule stale (R130, R145, R276), also one that starts at
0x50; and `ready` is cleared exactly by a raw 0x55 at 0xF0 (R34, R128). -/
def Obligations.NoKeySetupWithout4F : Prop :=
  ∀ (a : Byte) (d : List Byte) (s : State), s.started = true → 1 ≤ d.length → d.length ≤ 7 →
    (∀ i, i < d.length → writeCursor a i ≠ 0x4F) →
    ∃ t, exec (.wrData a d) s = .next t ∧
      t.fb = s.fb ∧ t.sb = s.sb ∧ t.seedArr = s.seedArr ∧ t.keyArr = s.keyArr ∧
      (t.ready = true ↔ s.ready = true ∧ ¬∃ i, ∃ h : i < d.length, writeCursor a i = 0xF0 ∧ d[i] = 0x55)

/-- FORCE_DISABLE (R128, R134, R144; D8): a raw 0x55 at 0xF0 clears `ready` and is stored raw whatever the cipher was,
the later bytes of the event are stored raw, and the tables and arrays are not cleared. -/
def Obligations.ForceDisableStoresRaw : Prop :=
  ∀ (a : Byte) (d : List Byte) (s : State) (i : Nat) (h : i < d.length), s.started = true → d.length ≤ 7 →
    writeCursor a i = 0xF0 → d[i] = 0x55 →
    ∃ t, exec (.wrData a d) s = .next t ∧ t.ready = false ∧ t.rf.read 0xF0 = 0x55 ∧
      (∀ (j : Nat) (hj : j < d.length), i < j → t.rf.read (writeCursor a j) = d[j]) ∧
      t.fb = s.fb ∧ t.sb = s.sb ∧ t.seedArr = s.seedArr ∧ t.keyArr = s.keyArr

/-- R131: KEY_SETUP does not read RF[0xF0]. It sets `ready` whatever that cell holds, and the cipher is active after it
exactly when RF[0xF0] = 0xAA. -/
def Obligations.KeySetupIgnoresControlCell : Prop :=
  ∀ (s : State) (v : Byte),
    s.keySetup.ready = true ∧ (cipherActive s.keySetup = true ↔ s.rf.read 0xF0 = 0xAA) ∧
    (s.writeCell 0xF0 v).keySetup = s.keySetup.writeCell 0xF0 v

/-! ## Cipher -/

/-- R122: DECRYPT(c, x) is `(c ^ sb[x mod 8]) +₈ fb[x mod 8]`; addresses 8 apart use the same entry (R132); with the
example's entries DECRYPT(0x00, 0x00) = 0xCB. That distinct bytes have distinct results is the spec's own inference
(R122 marks it derived from the rule). -/
def Obligations.DecryptIsXorThenAdd : Prop :=
  ∀ (fb sb : Table) (x : Byte),
    (∀ c, decrypt fb sb c x = (c ^^^ sb[x.toNat % 8]'(Nat.mod_lt _ (by decide))) +
      fb[x.toNat % 8]'(Nat.mod_lt _ (by decide))) ∧
    (∀ c c', decrypt fb sb c x = decrypt fb sb c' x → c = c') ∧
    (∀ c, decrypt fb sb c (x + 8) = decrypt fb sb c x) ∧
    (fb[0] = 0x66 → sb[0] = 0x65 → decrypt fb sb 0x00 0x00 = 0xCB)

/-- R124: ENCRYPT(p, x) is `(p -₈ fb[x mod 8]) ^ sb[x mod 8]`; with the example's entries ENCRYPT(0xA0, 0x00) = 0x5F;
and the read dispatcher applies it to every element of a response while the cipher is active, with its own address. -/
def Obligations.EncryptIsSubtractThenXor : Prop :=
  (∀ (fb sb : Table) (p x : Byte),
    encrypt fb sb p x = (p - fb[x.toNat % 8]'(Nat.mod_lt _ (by decide))) ^^^
      sb[x.toNat % 8]'(Nat.mod_lt _ (by decide))) ∧
  (∀ fb sb : Table, fb[0] = 0x66 → sb[0] = 0x65 → encrypt fb sb 0xA0 0x00 = 0x5F) ∧
  ∀ (s : State) (pt : List Byte) (start : Byte), s.rf.read 0xF0 = 0xAA → s.ready = true →
    (xform s pt start).length = pt.length ∧
      ∀ i, (h : i < pt.length) → (xform s pt start)[i]? = some (encrypt s.fb s.sb pt[i] (start + BitVec.ofNat 8 i))

/-- The two transforms undo each other at every address, for every pair of tables (R125, an inference of the spec). -/
def Obligations.CipherTransformsAreInverse : Prop :=
  ∀ (fb sb : Table) (v x : Byte), encrypt fb sb (decrypt fb sb v x) x = v ∧ decrypt fb sb (encrypt fb sb v x) x = v

/-- R121: while the cipher is inactive both transforms are the identity: a response is its plaintext and a data byte
is stored as received. -/
def Obligations.InactiveCipherPassesThrough : Prop :=
  ∀ s : State, (s.rf.read 0xF0 ≠ 0xAA ∨ s.ready = false) →
    (∀ pt start, xform s pt start = pt) ∧
    ∀ a d, s.started = true → ∃ t, exec (.wrData a [d]) s = .next t ∧ t.rf.read a = d

/-- What a host writes through the active cipher it reads back as the same bytes on the wire (R122, R124, R125, R143,
R171, R177): one data byte at a generic register, addressed and read. -/
def Obligations.WireByteReadsBackUnderCipher : Prop :=
  ∀ (s : State) (a c : Byte), s.started = true → cipherActive s = true → selectRead a = .rdBlock →
    a ≠ 0xF0 → a ≠ 0x4F → s.lastState ≠ some a →
    ∃ t bytes, execMany [.wrData a [c], .wrAddr a, .rdBlock] s = .next t ∧
      t.trace.getLast? = some (.response (c :: bytes)) ∧ t.ready = true

/-! ## Reads -/

/-- RD_REPORT (R172, R175; D1, D3, D10, D30): the cursor, the response from `active`, then the streaming hook; nothing
else changes, RF and the plaintext among it (R66, R171). The counter of draws is the model's (log entry 10). -/
def Obligations.RdReportResult : Prop :=
  ∀ s : State, s.started = true → s.state = 0x00 →
    exec .rdReport s = .next
      { s with
        lastState := some 0x00
        blockOffset := 0x00
        active := if s.streamHookReg = true then s.hookAnswer.getD s.active else s.active
        draws := if s.streamHookReg = true then s.draws + 1 else s.draws
        refused := s.refused || (s.streamHookReg && s.collab.callsBack)
        trace := s.trace ++ .response (xform s s.active.toList 0x00) ::
          (if s.streamHookReg = true then
            .hookAsked s.active :: (if s.collab.callsBack = true then [.refusal .reentrant] else []) else []) }

/-- R224: the hook is asked only while it is registered, after the response, with the plaintext just sent; its reply
`some B` makes B active and `NONE` leaves `active` unchanged. That the response is XFORM of `active` at 0x00, encrypted
while the cipher is active, is R171 and R172 under decision D10 (log entry 20). -/
def Obligations.StreamingHookAskedAfterResponse : Prop :=
  ∀ s : State, s.started = true → s.state = 0x00 → ∃ t, exec .rdReport s = .next t ∧
    (s.streamHookReg = true → (outputsSince s t)[1]? = some (.hookAsked s.active) ∧
      (outputsSince s t)[0]? = some (.response (xform s s.active.toList 0x00)) ∧
      (∀ b, s.hookAnswer = some b → t.active = b) ∧ (s.hookAnswer = none → t.active = s.active)) ∧
    (s.streamHookReg = false → (∀ b, .hookAsked b ∉ outputsSince s t) ∧ t.active = s.active)

/-- R173: a replacement never changes the response of the read that asked; it is what the next RD_REPORT returns,
unless a BUF_SWAP or a BUF_POKE in between changes it. That a swap or a poke is served at once is R220, R222 and R223
under decision D23 (log entry 25); that a response is XFORM of the buffer at 0x00 is R171 and R172 under decision D10
(log entry 20). -/
def Obligations.StreamReplacementServedByNextRead : Prop :=
  ∀ (s : State) (b : Buf6), s.started = true → s.state = 0x00 → s.streamHookReg = true → s.hookAnswer = some b →
    ∃ t, exec .rdReport s = .next t ∧
      (outputsSince s t)[0]? = some (.response (xform s s.active.toList 0x00)) ∧
      (∃ u, exec .rdReport t = .next u ∧ (outputsSince t u)[0]? = some (.response (xform s b.toList 0x00))) ∧
      (∀ b', ∃ v u, exec (.bufSwap b') t = .next v ∧ exec .rdReport v = .next u ∧
        (outputsSince v u)[0]? = some (.response (xform s b'.toList 0x00))) ∧
      (∀ (i : Nat) (h : i < 6) (w : Byte), ∃ v u, exec (.bufPoke i w) t = .next v ∧ exec .rdReport v = .next u ∧
        (outputsSince v u)[0]? = some (.response (xform s (b.set i w h).toList 0x00)))

/-- The reply is a free draw at each ask (R225; D30): a read whose input fixes no reply takes the draw numbered by the
asks before it, a read whose input fixes one takes that; every step moves the number on by the asks it made, so no two
asks of a run share a draw; and the answer is the same whatever the block's own state is. The counter and its numbering
are the model's (DESIGN CHOICE, log entry 10). -/
def Obligations.EveryAskTakesItsOwnDraw : Prop :=
  (∀ s : State, s.started = true → s.state = 0x00 → s.streamHookReg = true →
    (s.collab.reply = .draw → ∃ t, exec .rdReport s = .next t ∧ t.draws = s.draws + 1 ∧
      t.active = (Config.hookReply s.draws).getD s.active) ∧
    ∀ r, s.collab.reply = .given r → ∃ t, exec .rdReport s = .next t ∧ t.draws = s.draws + 1 ∧
      t.active = r.getD s.active) ∧
  (∀ s t : State, step s = .next t → t.draws = s.draws + (outputsSince s t).countP Output.isAsk) ∧
  ∀ s t : State, t.collab = s.collab → t.draws = s.draws → t.hookAnswer = s.hookAnswer

/-- RD_ID (R174, R175; D2, D3): the current contents of RF[0xFA..0xFF]; only the read cursor moves. -/
def Obligations.RdIdResult : Prop :=
  ∀ s : State, s.started = true → s.state = 0xFA →
    exec .rdId s = .next
      { s with
        lastState := some 0xFA
        blockOffset := 0x00
        trace := s.trace ++ [.response (xform s [s.rf.read 0xFA, s.rf.read 0xFB, s.rf.read 0xFC, s.rf.read 0xFD,
          s.rf.read 0xFE, s.rf.read 0xFF] 0xFA)] }

/-- RD_CAL (R176, R178; D4): an immediate repeat returns the second half and leaves the repeat marker, any other
request the first half; nothing but the read cursor changes. -/
def Obligations.RdCalResult : Prop :=
  ∀ s : State, s.started = true → s.state = 0x20 ∨ s.state = 0x30 →
    exec .rdCal s = .next
      (if s.lastState = some s.state then
        { s with
          lastState := none
          blockOffset := 0x08
          trace := s.trace ++ [.response (xform s (s.rf.readRange (s.state + 8) 8) (s.state + 8))] }
      else
        { s with
          lastState := some s.state
          blockOffset := 0x00
          trace := s.trace ++ [.response (xform s (s.rf.readRange s.state 8) s.state)] })

/-- RD_BLOCK (R177, R178; D4, D5): a repeat advances the offset by 8 mod 256, any other request starts at the
register; nothing but the read cursor changes. -/
def Obligations.RdBlockResult : Prop :=
  ∀ s : State, s.started = true → s.state ≠ 0x00 → s.state ≠ 0xFA → s.state ≠ 0x20 → s.state ≠ 0x30 →
    exec .rdBlock s = .next
      (if s.lastState = some s.state then
        { s with
          blockOffset := s.blockOffset + 8
          trace := s.trace ++ [.response (xform s (s.rf.readRange (s.state + (s.blockOffset + 8)) 8)
            (s.state + (s.blockOffset + 8)))] }
      else
        { s with
          lastState := some s.state
          blockOffset := 0x00
          trace := s.trace ++ [.response (xform s (s.rf.readRange s.state 8) s.state)] })

/-- A slice is the cells from its start up, wrapping at 0xFF (R62, R63, R9). -/
def Obligations.SliceReadsWrap : Prop :=
  ∀ (m : Memory) (a : Byte) (n i : Nat), i < n →
    (m.readRange a n)[i]? = some (m.read (BitVec.ofNat 8 ((a.toNat + i) % 256)))

/-- The response lengths (R65, R84): 6 bytes for RD_REPORT and RD_ID, 8 for RD_CAL and RD_BLOCK, with the cipher
active or not. -/
def Obligations.ResponseLengths : Prop :=
  ∀ s : State, s.started = true → ∃ t bytes, exec (selectRead s.state) s = .next t ∧
    (outputsSince s t)[0]? = some (.response bytes) ∧
    bytes.length = if s.state = 0x00 ∨ s.state = 0xFA then 6 else 8

/-- Three consecutive reads of a calibration register, not just read before, return the halves first, second, first
(R180). -/
def Obligations.CalibrationReadsAlternate : Prop :=
  ∀ s : State, s.started = true → s.state = 0x20 ∨ s.state = 0x30 → s.lastState ≠ some s.state →
    execMany [.rdCal, .wrAddr s.state, .rdCal, .rdCal] s = .next
      { s with
        lastState := some s.state
        blockOffset := 0x00
        trace := s.trace ++ [.response (xform s (s.rf.readRange s.state 8) s.state),
          .response (xform s (s.rf.readRange (s.state + 8) 8) (s.state + 8)),
          .response (xform s (s.rf.readRange s.state 8) s.state)] }

/-- Any number of consecutive reads of a generic register return its successive 8-byte slices, wrapping mod 256, so
that the 33rd equals the first (R177, R277; D5). -/
def Obligations.BlockReadsStepThroughRf : Prop :=
  ∀ (s : State) (n : Nat), s.started = true → selectRead s.state = .rdBlock → s.lastState ≠ some s.state →
    execMany (List.replicate (n + 1) .rdBlock) s = .next
      { s with
        lastState := some s.state
        blockOffset := BitVec.ofNat 8 (8 * n)
        trace := s.trace ++ (List.range (n + 1)).map fun k =>
          .response (xform s (s.rf.readRange (s.state + BitVec.ofNat 8 (8 * k)) 8)
            (s.state + BitVec.ofNat 8 (8 * k))) }

/-! ## Register file, report and buffer -/

/-- R100: RF_GET returns the stored byte and writes nothing; it never decrypts and never returns the active buffer; an
address above 0xFF is refused as AddressRange; after reset RF_GET 0x10 is 0xFF. -/
def Obligations.RfGetReturnsStoredByte : Prop :=
  (∀ (a : Byte) (s : State), s.started = true →
    exec (.rfGet a) s = .next { s with trace := s.trace ++ [.rfGetResult (s.rf.read a)] }) ∧
  (∀ (n : Nat) (s : State), s.started = true → 0xFF < n →
    perform (.call .rfGet [n]) s = refuseWith .addressRange s) ∧
  exec (.rfGet 0x10) State.reset = .next { State.reset with trace := [.rfGetResult 0xFF] }

/-- RF_SETRANGE (R103): a run past 0xFF is refused as AddressRange and does not wrap; any other run writes its cells
and leaves every other cell alone. -/
def Obligations.SetRangeWritesOrRefuses : Prop :=
  ∀ (a : Byte) (bytes : List Byte) (m : Memory), 1 ≤ bytes.length →
    (256 < a.toNat + bytes.length → Memory.setRange a bytes m = .error .addressRange) ∧
    (a.toNat + bytes.length ≤ 256 → ∃ m', Memory.setRange a bytes m = .ok m' ∧
      ∀ x : Byte, m'.read x = if h : a.toNat ≤ x.toNat ∧ x.toNat - a.toNat < bytes.length then
        bytes[x.toNat - a.toNat]'h.2 else m.read x)

/-- R104: CALBLOCK is the payload, then its byte sum +₈ 0x55 and +₈ 0xAA; reducing after each addition gives the same
sum; STARTUP writes CALBLOCK(P_CAL_PAYLOAD) to both 0x20 and 0x30 (R270); and the
rule's three examples, which R104 marks as derived from it, the spec's own inference. -/
def Obligations.CalBlockChecksums : Prop :=
  (∀ p : CalPayload,
    let s := BitVec.ofNat 8 ((p.toList.map BitVec.toNat).sum % 256)
    calBlock p = p.toList ++ [s + 0x55, s + 0xAA] ∧ p.toList.foldl (· + ·) 0x00 = s) ∧
  (∀ s : State, s.started = false → ∃ t, exec .startup s = .next t ∧
    t.rf.readRange 0x20 16 = calBlock Config.calPayload ∧ t.rf.readRange 0x30 16 = calBlock Config.calPayload) ∧
  (calBlock #v[1, 2, 3, 4, 5, 6, 7, 8, 9, 10, 11, 12, 13, 14]).drop 14 = [0xBE, 0x13] ∧
  (calBlock (Vector.replicate 14 0x00)).drop 14 = [0x55, 0xAA] ∧
  (calBlock (Vector.replicate 14 0xFF)).drop 14 = [0x47, 0x9C]

/-- SET_INPUT (R204; D17): the named field takes the value, every other field of `inp` keeps its own, and nothing else
in the block changes. -/
def Obligations.SetInputWritesOneField : Prop :=
  ∀ (s : State) (u : InputWrite), s.started = true →
    ∃ t, exec (.setInput u) s = .next t ∧ t = { s with inp := t.inp } ∧
      (∀ f v, u = .axis f v → (∀ g, t.inp.axis g = if g = f then v else s.inp.axis g) ∧
        ∀ g, t.inp.flag g = s.inp.flag g) ∧
      (∀ f v, u = .flag f v → (∀ g, t.inp.flag g = if g = f then v else s.inp.flag g) ∧
        ∀ g, t.inp.axis g = s.inp.axis g)

/-- ENCODE (R200, R201, R202): it returns the report and writes nothing; each report byte bit by bit, R and ZR
active-high, every other flag inverted, bit 0 of byte 4 always 1 (widths: D17). -/
def Obligations.EncodeReportBitMap : Prop :=
  ∀ s : State, s.started = true →
    let i := s.inp
    let z := fun k => i.accelZ.getLsbD k
    let r := encodeReport i
    exec .encode s = .next { s with trace := s.trace ++ [.encodeResult r] } ∧
      bitsOf r[0] = [z 7, z 6, i.sx.getLsbD 7, i.sx.getLsbD 6, i.sx.getLsbD 5, i.sx.getLsbD 4, i.sx.getLsbD 3,
        i.sx.getLsbD 2] ∧
      bitsOf r[1] = [z 5, z 4, i.sy.getLsbD 7, i.sy.getLsbD 6, i.sy.getLsbD 5, i.sy.getLsbD 4, i.sy.getLsbD 3,
        i.sy.getLsbD 2] ∧
      bitsOf r[2] = [z 3, i.accelX.getLsbD 7, i.accelX.getLsbD 6, i.accelX.getLsbD 5, i.accelX.getLsbD 4,
        i.accelX.getLsbD 3, i.accelX.getLsbD 2, i.accelX.getLsbD 1] ∧
      bitsOf r[3] = [z 2, i.accelY.getLsbD 7, i.accelY.getLsbD 6, i.accelY.getLsbD 5, i.accelY.getLsbD 4,
        i.accelY.getLsbD 3, i.accelY.getLsbD 2, i.accelY.getLsbD 1] ∧
      bitsOf r[4] = [i.r, i.zr, !i.accessoryReady, !i.minus, !i.home, !i.plus, !z 1, true] ∧
      bitsOf r[5] = [!i.z, !i.b, !i.y, !i.a, !i.x, !i.c, !i.left, !i.up]

/-- The golden neutral report and the dropped bits (R203, R206; P_MID is decision D18, log entry 9). -/
def Obligations.GoldenReportAndDroppedBits : Prop :=
  encodeReport Input.default = #v[0xA0, 0x20, 0x40, 0x40, 0x3F, 0xFF] ∧
  ∀ (i : Input) (sx sy ax ay az : Byte),
    sx >>> 2 = i.sx >>> 2 → sy >>> 2 = i.sy >>> 2 → ax >>> 1 = i.accelX >>> 1 → ay >>> 1 = i.accelY >>> 1 →
    az >>> 1 = i.accelZ >>> 1 →
    encodeReport { i with sx := sx, sy := sy, accelX := ax, accelY := ay, accelZ := az } = encodeReport i

/-- BUF_POKE (R220; D22): one byte of `active` changes and nothing else; an index above 5 is refused as PokeIndex. -/
def Obligations.BufPokeWritesOneByte : Prop :=
  ∀ (i : Nat) (v : Byte) (s : State), s.started = true →
    (∀ h : i < 6, exec (.bufPoke i v) s = .next { s with active := s.active.set i v h }) ∧
    (5 < i → exec (.bufPoke i v) s =
      .next { s with refused := true, trace := s.trace ++ [.refusal .pokeIndex] })

/-- BUF_SWAP (R222, R223; D23): it returns exactly the buffer active before, B becomes active, nothing else changes;
and the next RD_REPORT serves B whatever the streaming hook did before. That it answers XFORM of B at 0x00, encrypted
while the cipher is active, is R171 and R172 under decision D10 (log entry 20). -/
def Obligations.BufSwapExchanges : Prop :=
  ∀ (b : Buf6) (s : State), s.started = true →
    exec (.bufSwap b) s = .next { s with active := b, trace := s.trace ++ [.swapResult s.active] } ∧
    (s.state = 0x00 → ∃ t u, exec (.bufSwap b) s = .next t ∧ exec .rdReport t = .next u ∧
      (outputsSince t u)[0]? = some (.response (xform s b.toList 0x00)))

/-- REG_WRITE_HOOK and REG_STREAM_HOOK (R226, R227; D21): each writes its registration bit and nothing else. -/
def Obligations.HookRegistration : Prop :=
  ∀ (r : Bool) (s : State), s.started = true →
    exec (.regWriteHook r) s = .next { s with writeHookReg := r } ∧
    exec (.regStreamHook r) s = .next { s with streamHookReg := r }

/-! ## Startup and refusals -/

/-- STARTUP (R270, R41; the values after the RF writes are decisions D14-D16, D18, D19, D21, D36, log entry 9): from
any state before it, with RF in canonical form, the writes of R270 leave exactly the reset state; pending inputs and
outputs are the model's and stay, and so does a refusal mark that is already set, since R243 never clears it: it is
R270's 0 where nothing was refused before (log entry 2). -/
def Obligations.StartupGivesReset : Prop :=
  ∀ s : State, s.started = false → s.rf.wf →
    exec .startup s = .next
      { State.reset with refused := s.refused, events := s.events, calls := s.calls, turns := s.turns,
                         collab := s.collab, draws := s.draws, trace := s.trace }

/-- RF after STARTUP (R41, R270, R29): the fill, both calibration copies, the identification block. -/
def Obligations.ResetRegisterFile : Prop :=
  (∀ a : Byte, (a.toNat < 0x20 ∨ (0x40 ≤ a.toNat ∧ a.toNat < 0xFA)) → State.reset.rf.read a = 0xFF) ∧
  State.reset.rf.readRange 0x20 16 = calBlock Config.calPayload ∧
  State.reset.rf.readRange 0x30 16 = calBlock Config.calPayload ∧
  State.reset.rf.readRange 0xFA 6 = Config.idBlock.toList

/-- Before STARTUP completes everything but STARTUP is refused as BeforeStartup and has no other effect (R243, R271;
D38; that the rest is unchanged is log entry 1). That the name is BeforeStartup also for an input with another refusal (an
over-long write, bad arguments) is the model's choice (DESIGN CHOICE, log entry 15). -/
def Obligations.NothingRunsBeforeStartup : Prop :=
  ∀ (s : State) (f : Frame), s.started = false → decode s.state f ≠ .ok .startup →
    perform f s = .next { s with refused := true, trace := s.trace ++ [.refusal .beforeStartup] }

/-- Inputs outside the contract after STARTUP (R243; D24, D35, D38): each is refused by its name, the mark is set and
nothing else changes (log entries 1 and 14). The frames of the calls, and that an application write to RF is
AppRegisterWrite whatever its arguments, also where an address is above 0xFF, are the model's choice (DESIGN CHOICE, log
entry 16); so is PokeIndex for a value that is no byte (log entry 13). -/
def Obligations.OutsideTheContractIsRefused : Prop :=
  ∀ s : State, s.started = true →
    let refusal := fun r => (.next { s with refused := true, trace := s.trace ++ [.refusal r] } : Result)
    (∀ a d, 8 ≤ d.length → perform (.write (a :: d)) s = refusal .writeTooLong ∧
      exec (.wrData a d) s = refusal .writeTooLong) ∧
    (∀ i v, 5 < i → perform (.call .bufPoke [i, v]) s = refusal .pokeIndex) ∧
    (∀ args, perform (.call .rfSet args) s = refusal .appRegisterWrite) ∧
    (∀ args, perform (.call .rfSetRange args) s = refusal .appRegisterWrite) ∧
    exec .startup s = refusal .appRegisterWrite ∧
    (∀ n, 0xFF < n → perform (.call .rfGet [n]) s = refusal .addressRange)

/-! ## The whole machine -/

/-- Every step keeps the invariant: RF's canonical form, the block offset's values (R32, R175, R176), and the tables
being the generator's while `ready` (R75, R126). -/
def Obligations.StepKeepsInvariant : Prop :=
  ∀ s t : State, s.Inv → step s = .next t → t.Inv

/-- The invariant holds after reset (the cursor's and `ready`'s values are decisions D15, D16, log entry 9). -/
def Obligations.InvariantHoldsAtReset : Prop := State.reset.Inv

/-- The idle key schedule is unobservable (R33): states that differ only in the tables and arrays, and only while
`ready` is 0, take any number of steps to states that again differ only so; their outputs are the same. -/
def Obligations.IdleScheduleIsUnobservable : Prop :=
  ∀ (n : Nat) (s t : State), SameButIdleSchedule s t →
    ∃ s' t', Host.Core.run Sys2Proof.core n s = .next s' ∧ Host.Core.run Sys2Proof.core n t = .next t' ∧
      SameButIdleSchedule s' t' ∧ s'.trace = t'.trace

/-- No transport event reads or writes the controller input (R37, R39, R204): with another input the same operation
does the same and keeps that input. -/
def Obligations.EventsIgnoreTheInput : Prop :=
  ∀ (i : Instr) (s : State) (x : Input), i.agent = .ev →
    ∃ t, exec i s = .next t ∧ t.inp = s.inp ∧ exec i { s with inp := x } = .next { t with inp := x }

/-- What each context may write (R39, R60, R66): after STARTUP, an application operation leaves RF, `state`, the read
cursor and the cipher state alone; a read event leaves RF, `state` and the cipher state alone; a write event leaves the
read cursor and `active` alone; no event writes the input or a registration. -/
def Obligations.ContextsWriteOnlyTheirState : Prop :=
  ∀ (i : Instr) (s t : State), s.started = true → exec i s = .next t →
    (i.agent = .app → t = { s with active := t.active, inp := t.inp, writeHookReg := t.writeHookReg,
                                   streamHookReg := t.streamHookReg, refused := t.refused, trace := t.trace }) ∧
    (i.isRead = true → t = { s with lastState := t.lastState, blockOffset := t.blockOffset, active := t.active,
                                    draws := t.draws, refused := t.refused, trace := t.trace }) ∧
    (i.agent = .ev → i.isRead = false →
      t = { s with rf := t.rf, state := t.state, ready := t.ready, fb := t.fb, sb := t.sb, seedArr := t.seedArr,
                   keyArr := t.keyArr, refused := t.refused, trace := t.trace })

/-- `ready` is written in three places only (R34): it goes from 0 to 1 only by a WR_DATA that stores at 0x4F (R126,
R134), and from 1 to 0 only by a WR_DATA with a raw 0x55 at 0xF0 (R128) or by STARTUP. -/
def Obligations.ReadyChangesOnlyByHandshake : Prop :=
  ∀ (i : Instr) (s t : State), exec i s = .next t →
    (s.ready = false → t.ready = true → ∃ a d k, i = .wrData a d ∧ k < d.length ∧ writeCursor a k = 0x4F) ∧
    (s.ready = true → t.ready = false → i = .startup ∨
      ∃ a d k, i = .wrData a d ∧ ∃ h : k < d.length, writeCursor a k = 0xF0 ∧ d[k] = 0x55)

/-- Outputs are never retracted: every step only adds to the trace (R257; the trace is the model's, log entry 11). -/
def Obligations.OutputsAreNeverRetracted : Prop :=
  ∀ s t : State, step s = .next t → s.trace <+: t.trace

/-- The refusal mark is set by every refusal and never cleared, before STARTUP, by STARTUP and after it (R20, R243; that
R270's `refused <- 0` does not clear a mark already set is log entry 2); and a block that has started stays so. -/
def Obligations.RefusalMarkIsNeverCleared : Prop :=
  ∀ s t : State, step s = .next t →
    (s.started = true → t.started = true) ∧ (s.refused = true → t.refused = true) ∧
      ∀ r, .refusal r ∈ outputsSince s t → t.refused = true
end

