-- ==== Sys2Proof/Laws/Decode.lean ====
section
/-! SUPPORT. What the decoder's parts answer: read selection, byte and bit arguments, write events. -/

namespace Sys2Proof

/-- Read selection as the conditions of R170. -/
theorem selectRead_eq (st : Byte) :
    selectRead st = if st = 0x00 then .rdReport else if st = 0xFA then .rdId
      else if st = 0x20 ∨ st = 0x30 then .rdCal else .rdBlock := by
  revert st; decide

theorem selectRead_isRead (st : Byte) : (selectRead st).isRead = true := by
  rw [selectRead_eq]; split_ifs <;> rfl

/-- A byte argument is read back as itself. -/
@[simp] theorem byteArg_toNat (b : Byte) : byteArg b.toNat = some b := by
  simp [byteArg, b.isLt]

/-- A bit argument is read back as itself. -/
@[simp] theorem bitArg_toNat (b : Bool) : bitArg b.toNat = some b := by cases b <;> rfl

/-- What an argument read as a byte was. -/
theorem byteArg_some {n : Nat} {b : Byte} (h : byteArg n = some b) : n = b.toNat := by
  unfold byteArg at h
  split at h
  · obtain rfl := Option.some.inj h
    simp only [BitVec.toNat_ofNat]; omega
  · cases h

/-- What an argument read as a bit was. -/
theorem bitArg_some {n : Nat} {b : Bool} (h : bitArg n = some b) : n = b.toNat := by
  match n, h with
  | 0, h => obtain rfl := Option.some.inj h; rfl
  | 1, h => obtain rfl := Option.some.inj h; rfl

/-- What decoding a write event's byte string can answer (R82). -/
theorem decodeWrite_cases (bytes : List Byte) :
    (bytes = [] ∧ decodeWrite bytes = .error .emptyWrite) ∨
      (∃ a, bytes = [a] ∧ decodeWrite bytes = .ok (.wrAddr a)) ∨
      (∃ a d, bytes = a :: d ∧ 1 ≤ d.length ∧ d.length ≤ 7 ∧ decodeWrite bytes = .ok (.wrData a d)) ∨
      (∃ a d, bytes = a :: d ∧ 8 ≤ d.length ∧ decodeWrite bytes = .error .writeTooLong) := by
  match bytes with
  | [] => exact .inl ⟨rfl, rfl⟩
  | [a] => exact .inr (.inl ⟨a, rfl, rfl⟩)
  | a :: b :: d =>
    by_cases h : (b :: d).length ≤ 7
    · refine .inr (.inr (.inl ⟨a, b :: d, rfl, by simp, h, ?_⟩))
      rw [decodeWrite, if_neg (by simp), if_pos h]
    · refine .inr (.inr (.inr ⟨a, b :: d, rfl, by omega, ?_⟩))
      rw [decodeWrite, if_neg (by simp), if_neg h]

end Sys2Proof
end

