-- ==== Sys2Proof/Laws/Memory.lean ====
section
/-! SUPPORT. The memory laws: a read after a write, and the canonical form, which every memory operation keeps. -/

namespace Sys2Proof.Machine

theorem Memory.lookup_erase_same (n : Nat) (m : Memory) : Memory.lookup n (Memory.erase n m) = resetByte n := by
  induction m with
  | nil => rfl
  | cons c m ih =>
    by_cases h : c.1 = n
    · simpa [Memory.erase, h] using ih
    · simpa [Memory.erase, h, Memory.lookup] using ih

theorem Memory.lookup_erase_ne {n k : Nat} (h : k ≠ n) (m : Memory) :
    Memory.lookup k (Memory.erase n m) = Memory.lookup k m := by
  induction m with
  | nil => rfl
  | cons c m ih =>
    by_cases hc : c.1 = n
    · have hk : c.1 ≠ k := fun e => h (e.symm.trans hc)
      simpa [Memory.erase, hc, Memory.lookup, Ne.symm h] using ih
    · by_cases hk : c.1 = k
      · subst hk; simp [Memory.erase, Memory.lookup, h]
      · simpa [Memory.erase, hc, Memory.lookup, hk] using ih

/-- No entry of the erased memory lies at the erased address. -/
theorem Memory.mem_erase {n : Nat} {m : Memory} {c : Host.Cell} :
    c ∈ Memory.erase n m ↔ c ∈ m ∧ c.1 ≠ n := by
  induction m with
  | nil => simp [Memory.erase]
  | cons d m ih =>
    by_cases hd : d.1 = n
    · have hne : c.1 ≠ n → c ≠ d := fun h e => h (e ▸ hd)
      simp only [Memory.erase, hd, if_true, ih, List.mem_cons]
      tauto
    · simp only [Memory.erase, hd, if_false, List.mem_cons, ih]
      constructor
      · rintro (rfl | h)
        · exact ⟨.inl rfl, hd⟩
        · exact ⟨.inr h.1, h.2⟩
      · rintro ⟨rfl | h, hn⟩
        · exact .inl rfl
        · exact .inr ⟨h, hn⟩

theorem Memory.mem_insert {n : Nat} {v : Byte} {m : Memory} {c : Host.Cell} :
    c ∈ Memory.insert n v m ↔ c = (n, v) ∨ c ∈ m := by
  induction m with
  | nil => simp [Memory.insert]
  | cons d m ih =>
    by_cases hd : n < d.1
    · simp [Memory.insert, hd]
    · simp only [Memory.insert, hd, if_false, List.mem_cons, ih]
      tauto

theorem Memory.lookup_insert_ne {n k : Nat} (h : k ≠ n) (v : Byte) (m : Memory) :
    Memory.lookup k (Memory.insert n v m) = Memory.lookup k m := by
  induction m with
  | nil => simp [Memory.insert, Memory.lookup, Ne.symm h]
  | cons c m ih =>
    by_cases hc : n < c.1
    · simp [Memory.insert, hc, Memory.lookup, Ne.symm h]
    · simp [Memory.insert, hc, Memory.lookup, ih]

theorem Memory.lookup_insert_same (n : Nat) (v : Byte) (m : Memory) (h : ∀ c ∈ m, c.1 ≠ n) :
    Memory.lookup n (Memory.insert n v m) = v := by
  induction m with
  | nil => simp [Memory.insert, Memory.lookup]
  | cons c m ih =>
    by_cases hc : n < c.1
    · simp [Memory.insert, hc, Memory.lookup]
    · have hne : c.1 ≠ n := h c (by simp)
      simpa [Memory.insert, hc, Memory.lookup, hne] using ih fun d hd => h d (by simp [hd])

/-- A read after a write to the same cell gives the value written. -/
@[simp] theorem Memory.read_write_same (m : Memory) (a v : Byte) : (m.write a v).read a = v := by
  by_cases h : v = resetByte a.toNat
  · simp only [Memory.write, Memory.read, h, if_true]
    exact Memory.lookup_erase_same _ _
  · simp only [Memory.write, Memory.read, h, if_false]
    exact Memory.lookup_insert_same _ _ _ fun c hc => (Memory.mem_erase.mp hc).2

/-- A write leaves every other cell alone. -/
theorem Memory.read_write_ne (m : Memory) {a x : Byte} (h : x ≠ a) (v : Byte) : (m.write a v).read x = m.read x := by
  have hn : x.toNat ≠ a.toNat := fun e => h (BitVec.eq_of_toNat_eq e)
  by_cases hv : v = resetByte a.toNat
  · simpa [Memory.write, Memory.read, hv] using Memory.lookup_erase_ne hn m
  · simp only [Memory.write, Memory.read, hv, if_false]
    rw [Memory.lookup_insert_ne hn, Memory.lookup_erase_ne hn]

/-- What one write does to every read. -/
theorem Memory.read_write (m : Memory) (a v x : Byte) :
    (m.write a v).read x = if x = a then v else m.read x := by
  by_cases h : x = a
  · simp [h]
  · simp [h, Memory.read_write_ne m h]

theorem Memory.wf_nil : Memory.wf [] := ⟨.nil, fun _ h => nomatch h⟩

theorem Memory.wf_erase {m : Memory} (h : m.wf) (n : Nat) : Memory.wf (Memory.erase n m) := by
  refine ⟨?_, fun c hc => h.2 c (Memory.mem_erase.mp hc).1⟩
  have hp := h.1
  clear h
  induction m with
  | nil => exact .nil
  | cons c m ih =>
    have hm := List.pairwise_cons.mp hp
    by_cases hc : c.1 = n
    · simpa [Memory.erase, hc] using ih hm.2
    · simp only [Memory.erase, hc, if_false]
      exact List.pairwise_cons.mpr ⟨fun d hd => hm.1 d (Memory.mem_erase.mp hd).1, ih hm.2⟩

theorem Memory.pairwise_insert {m : Memory} {n : Nat} {v : Byte} (hp : m.Pairwise (fun c d => c.1 < d.1))
    (hn : ∀ c ∈ m, c.1 ≠ n) : (Memory.insert n v m).Pairwise (fun c d => c.1 < d.1) := by
  induction m with
  | nil => simp [Memory.insert]
  | cons c m ih =>
    have hm := List.pairwise_cons.mp hp
    by_cases hc : n < c.1
    · simp only [Memory.insert, hc, if_true]
      refine List.pairwise_cons.mpr ⟨fun d hd => ?_, hp⟩
      rcases List.mem_cons.mp hd with rfl | hd
      · exact hc
      · exact lt_trans hc (hm.1 d hd)
    · simp only [Memory.insert, hc, if_false]
      have hlt : c.1 < n := lt_of_le_of_ne (not_lt.mp hc) (hn c (by simp))
      refine List.pairwise_cons.mpr ⟨fun d hd => ?_, ih hm.2 fun d hd => hn d (by simp [hd])⟩
      rcases Memory.mem_insert.mp hd with rfl | hd
      · exact hlt
      · exact hm.1 d hd

/-- A write keeps the canonical form. -/
theorem Memory.wf_write {m : Memory} (h : m.wf) (a v : Byte) : (m.write a v).wf := by
  have he := Memory.wf_erase h a.toNat
  by_cases hv : v = resetByte a.toNat
  · rw [Memory.write, if_pos hv]
    exact he
  · rw [Memory.write, if_neg hv]
    refine ⟨Memory.pairwise_insert he.1 fun c hc => (Memory.mem_erase.mp hc).2, fun c hc => ?_⟩
    rcases Memory.mem_insert.mp hc with rfl | hc
    · exact ⟨a.isLt, hv⟩
    · exact he.2 c hc

/-- A run of writes keeps the canonical form. -/
theorem Memory.wf_writeRange {m : Memory} (h : m.wf) (a : Byte) (vs : List Byte) : (Memory.writeRange a vs m).wf := by
  induction vs generalizing a m with
  | nil => exact h
  | cons v vs ih => exact ih (Memory.wf_write h a v) (a + 1)

/-- What RF_SETRANGE can answer: the run of writes, or AddressRange past 0xFF (R103). -/
theorem Memory.setRange_cases {a : Byte} {vs : List Byte} {m : Memory} :
    (a.toNat + vs.length ≤ 256 ∧ Memory.setRange a vs m = .ok (Memory.writeRange a vs m)) ∨
      (256 < a.toNat + vs.length ∧ Memory.setRange a vs m = .error .addressRange) := by
  by_cases h : 256 < a.toNat + vs.length
  · exact .inr ⟨h, by simp [Memory.setRange, h]⟩
  · exact .inl ⟨not_lt.mp h, by simp [Memory.setRange, h]⟩

/-- RF_SETRANGE keeps the canonical form where it answers. -/
theorem Memory.wf_setRange {m m' : Memory} (h : m.wf) {a : Byte} {vs : List Byte}
    (he : Memory.setRange a vs m = .ok m') : m'.wf := by
  rcases Memory.setRange_cases (a := a) (vs := vs) (m := m) with ⟨_, e⟩ | ⟨_, e⟩
  · obtain rfl := Except.ok.inj (e.symm.trans he)
    exact Memory.wf_writeRange h a vs
  · exact nomatch e.symm.trans he

/-- The length of the calibration block (R25). -/
@[simp] theorem calBlock_length (p : CalPayload) : (calBlock p).length = 16 := by simp [calBlock]

/-- STARTUP's writes are never refused: the three runs end at 0xFF, 0x2F and 0x3F (R103, R270). -/
theorem Memory.startup_eq (m : Memory) :
    Memory.startup m = .ok (Memory.writeRange 0x30 (calBlock Config.calPayload)
      (Memory.writeRange 0x20 (calBlock Config.calPayload) (Memory.writeRange 0xFA Config.idBlock.toList m.fill))) := by
  simp [Memory.startup, Memory.setRange]

/-- STARTUP's writes keep the canonical form. -/
theorem Memory.wf_startup {m m' : Memory} (h : m.wf) (he : Memory.startup m = .ok m') : m'.wf := by
  obtain rfl := Except.ok.inj ((Memory.startup_eq m).symm.trans he)
  exact Memory.wf_writeRange (Memory.wf_writeRange (Memory.wf_writeRange (Memory.wf_writeRange h _ _) _ _) _ _) _ _

theorem Memory.readRange_length (m : Memory) (a : Byte) (n : Nat) : (m.readRange a n).length = n := by
  induction n generalizing a with
  | zero => rfl
  | succ n ih => simp [Memory.readRange, ih]

end Sys2Proof.Machine
end

