-- ==== Sys2Proof/Laws/State.lean ====
section
/-! SUPPORT. The fields of State after each named update: one lemma per field per update. -/

namespace Sys2Proof.Machine

@[simp] theorem State.emit_rf (o : Output) (s : State) : (State.emit o s).rf = s.rf := rfl
@[simp] theorem State.emit_state (o : Output) (s : State) : (State.emit o s).state = s.state := rfl
@[simp] theorem State.emit_lastState (o : Output) (s : State) : (State.emit o s).lastState = s.lastState := rfl
@[simp] theorem State.emit_blockOffset (o : Output) (s : State) : (State.emit o s).blockOffset = s.blockOffset := rfl
@[simp] theorem State.emit_fb (o : Output) (s : State) : (State.emit o s).fb = s.fb := rfl
@[simp] theorem State.emit_sb (o : Output) (s : State) : (State.emit o s).sb = s.sb := rfl
@[simp] theorem State.emit_seedArr (o : Output) (s : State) : (State.emit o s).seedArr = s.seedArr := rfl
@[simp] theorem State.emit_keyArr (o : Output) (s : State) : (State.emit o s).keyArr = s.keyArr := rfl
@[simp] theorem State.emit_ready (o : Output) (s : State) : (State.emit o s).ready = s.ready := rfl
@[simp] theorem State.emit_active (o : Output) (s : State) : (State.emit o s).active = s.active := rfl
@[simp] theorem State.emit_inp (o : Output) (s : State) : (State.emit o s).inp = s.inp := rfl
@[simp] theorem State.emit_writeHookReg (o : Output) (s : State) :
    (State.emit o s).writeHookReg = s.writeHookReg := rfl
@[simp] theorem State.emit_streamHookReg (o : Output) (s : State) :
    (State.emit o s).streamHookReg = s.streamHookReg := rfl
@[simp] theorem State.emit_refused (o : Output) (s : State) : (State.emit o s).refused = s.refused := rfl
@[simp] theorem State.emit_started (o : Output) (s : State) : (State.emit o s).started = s.started := rfl
@[simp] theorem State.emit_events (o : Output) (s : State) : (State.emit o s).events = s.events := rfl
@[simp] theorem State.emit_calls (o : Output) (s : State) : (State.emit o s).calls = s.calls := rfl
@[simp] theorem State.emit_turns (o : Output) (s : State) : (State.emit o s).turns = s.turns := rfl
@[simp] theorem State.emit_collab (o : Output) (s : State) : (State.emit o s).collab = s.collab := rfl
@[simp] theorem State.emit_draws (o : Output) (s : State) : (State.emit o s).draws = s.draws := rfl
@[simp] theorem State.emit_trace (o : Output) (s : State) : (State.emit o s).trace = s.trace ++ [o] := rfl

@[simp] theorem State.refuse_rf (r : RefuseReason) (s : State) : (State.refuse r s).rf = s.rf := rfl
@[simp] theorem State.refuse_state (r : RefuseReason) (s : State) : (State.refuse r s).state = s.state := rfl
@[simp] theorem State.refuse_lastState (r : RefuseReason) (s : State) :
    (State.refuse r s).lastState = s.lastState := rfl
@[simp] theorem State.refuse_blockOffset (r : RefuseReason) (s : State) :
    (State.refuse r s).blockOffset = s.blockOffset := rfl
@[simp] theorem State.refuse_fb (r : RefuseReason) (s : State) : (State.refuse r s).fb = s.fb := rfl
@[simp] theorem State.refuse_sb (r : RefuseReason) (s : State) : (State.refuse r s).sb = s.sb := rfl
@[simp] theorem State.refuse_seedArr (r : RefuseReason) (s : State) : (State.refuse r s).seedArr = s.seedArr := rfl
@[simp] theorem State.refuse_keyArr (r : RefuseReason) (s : State) : (State.refuse r s).keyArr = s.keyArr := rfl
@[simp] theorem State.refuse_ready (r : RefuseReason) (s : State) : (State.refuse r s).ready = s.ready := rfl
@[simp] theorem State.refuse_active (r : RefuseReason) (s : State) : (State.refuse r s).active = s.active := rfl
@[simp] theorem State.refuse_inp (r : RefuseReason) (s : State) : (State.refuse r s).inp = s.inp := rfl
@[simp] theorem State.refuse_writeHookReg (r : RefuseReason) (s : State) :
    (State.refuse r s).writeHookReg = s.writeHookReg := rfl
@[simp] theorem State.refuse_streamHookReg (r : RefuseReason) (s : State) :
    (State.refuse r s).streamHookReg = s.streamHookReg := rfl
@[simp] theorem State.refuse_refused (r : RefuseReason) (s : State) : (State.refuse r s).refused = true := rfl
@[simp] theorem State.refuse_started (r : RefuseReason) (s : State) : (State.refuse r s).started = s.started := rfl
@[simp] theorem State.refuse_events (r : RefuseReason) (s : State) : (State.refuse r s).events = s.events := rfl
@[simp] theorem State.refuse_calls (r : RefuseReason) (s : State) : (State.refuse r s).calls = s.calls := rfl
@[simp] theorem State.refuse_turns (r : RefuseReason) (s : State) : (State.refuse r s).turns = s.turns := rfl
@[simp] theorem State.refuse_collab (r : RefuseReason) (s : State) : (State.refuse r s).collab = s.collab := rfl
@[simp] theorem State.refuse_draws (r : RefuseReason) (s : State) : (State.refuse r s).draws = s.draws := rfl
@[simp] theorem State.refuse_trace (r : RefuseReason) (s : State) :
    (State.refuse r s).trace = s.trace ++ [.refusal r] := rfl

@[simp] theorem State.writeCell_rf (a v : Byte) (s : State) : (State.writeCell a v s).rf = s.rf.write a v := rfl
@[simp] theorem State.writeCell_state (a v : Byte) (s : State) : (State.writeCell a v s).state = s.state := rfl
@[simp] theorem State.writeCell_lastState (a v : Byte) (s : State) :
    (State.writeCell a v s).lastState = s.lastState := rfl
@[simp] theorem State.writeCell_blockOffset (a v : Byte) (s : State) :
    (State.writeCell a v s).blockOffset = s.blockOffset := rfl
@[simp] theorem State.writeCell_fb (a v : Byte) (s : State) : (State.writeCell a v s).fb = s.fb := rfl
@[simp] theorem State.writeCell_sb (a v : Byte) (s : State) : (State.writeCell a v s).sb = s.sb := rfl
@[simp] theorem State.writeCell_seedArr (a v : Byte) (s : State) : (State.writeCell a v s).seedArr = s.seedArr := rfl
@[simp] theorem State.writeCell_keyArr (a v : Byte) (s : State) : (State.writeCell a v s).keyArr = s.keyArr := rfl
@[simp] theorem State.writeCell_ready (a v : Byte) (s : State) : (State.writeCell a v s).ready = s.ready := rfl
@[simp] theorem State.writeCell_active (a v : Byte) (s : State) : (State.writeCell a v s).active = s.active := rfl
@[simp] theorem State.writeCell_inp (a v : Byte) (s : State) : (State.writeCell a v s).inp = s.inp := rfl
@[simp] theorem State.writeCell_writeHookReg (a v : Byte) (s : State) :
    (State.writeCell a v s).writeHookReg = s.writeHookReg := rfl
@[simp] theorem State.writeCell_streamHookReg (a v : Byte) (s : State) :
    (State.writeCell a v s).streamHookReg = s.streamHookReg := rfl
@[simp] theorem State.writeCell_refused (a v : Byte) (s : State) : (State.writeCell a v s).refused = s.refused := rfl
@[simp] theorem State.writeCell_started (a v : Byte) (s : State) : (State.writeCell a v s).started = s.started := rfl
@[simp] theorem State.writeCell_events (a v : Byte) (s : State) : (State.writeCell a v s).events = s.events := rfl
@[simp] theorem State.writeCell_calls (a v : Byte) (s : State) : (State.writeCell a v s).calls = s.calls := rfl
@[simp] theorem State.writeCell_turns (a v : Byte) (s : State) : (State.writeCell a v s).turns = s.turns := rfl
@[simp] theorem State.writeCell_collab (a v : Byte) (s : State) : (State.writeCell a v s).collab = s.collab := rfl
@[simp] theorem State.writeCell_draws (a v : Byte) (s : State) : (State.writeCell a v s).draws = s.draws := rfl
@[simp] theorem State.writeCell_trace (a v : Byte) (s : State) : (State.writeCell a v s).trace = s.trace := rfl

@[simp] theorem State.setCursor_rf (c : Option Byte × Byte) (s : State) : (State.setCursor c s).rf = s.rf := rfl
@[simp] theorem State.setCursor_state (c : Option Byte × Byte) (s : State) :
    (State.setCursor c s).state = s.state := rfl
@[simp] theorem State.setCursor_lastState (c : Option Byte × Byte) (s : State) :
    (State.setCursor c s).lastState = c.1 := rfl
@[simp] theorem State.setCursor_blockOffset (c : Option Byte × Byte) (s : State) :
    (State.setCursor c s).blockOffset = c.2 := rfl
@[simp] theorem State.setCursor_fb (c : Option Byte × Byte) (s : State) : (State.setCursor c s).fb = s.fb := rfl
@[simp] theorem State.setCursor_sb (c : Option Byte × Byte) (s : State) : (State.setCursor c s).sb = s.sb := rfl
@[simp] theorem State.setCursor_seedArr (c : Option Byte × Byte) (s : State) :
    (State.setCursor c s).seedArr = s.seedArr := rfl
@[simp] theorem State.setCursor_keyArr (c : Option Byte × Byte) (s : State) :
    (State.setCursor c s).keyArr = s.keyArr := rfl
@[simp] theorem State.setCursor_ready (c : Option Byte × Byte) (s : State) :
    (State.setCursor c s).ready = s.ready := rfl
@[simp] theorem State.setCursor_active (c : Option Byte × Byte) (s : State) :
    (State.setCursor c s).active = s.active := rfl
@[simp] theorem State.setCursor_inp (c : Option Byte × Byte) (s : State) : (State.setCursor c s).inp = s.inp := rfl
@[simp] theorem State.setCursor_writeHookReg (c : Option Byte × Byte) (s : State) :
    (State.setCursor c s).writeHookReg = s.writeHookReg := rfl
@[simp] theorem State.setCursor_streamHookReg (c : Option Byte × Byte) (s : State) :
    (State.setCursor c s).streamHookReg = s.streamHookReg := rfl
@[simp] theorem State.setCursor_refused (c : Option Byte × Byte) (s : State) :
    (State.setCursor c s).refused = s.refused := rfl
@[simp] theorem State.setCursor_started (c : Option Byte × Byte) (s : State) :
    (State.setCursor c s).started = s.started := rfl
@[simp] theorem State.setCursor_events (c : Option Byte × Byte) (s : State) :
    (State.setCursor c s).events = s.events := rfl
@[simp] theorem State.setCursor_calls (c : Option Byte × Byte) (s : State) :
    (State.setCursor c s).calls = s.calls := rfl
@[simp] theorem State.setCursor_turns (c : Option Byte × Byte) (s : State) :
    (State.setCursor c s).turns = s.turns := rfl
@[simp] theorem State.setCursor_collab (c : Option Byte × Byte) (s : State) :
    (State.setCursor c s).collab = s.collab := rfl
@[simp] theorem State.setCursor_draws (c : Option Byte × Byte) (s : State) :
    (State.setCursor c s).draws = s.draws := rfl
@[simp] theorem State.setCursor_trace (c : Option Byte × Byte) (s : State) :
    (State.setCursor c s).trace = s.trace := rfl

@[simp] theorem State.setActive_rf (b : Buf6) (s : State) : (State.setActive b s).rf = s.rf := rfl
@[simp] theorem State.setActive_state (b : Buf6) (s : State) : (State.setActive b s).state = s.state := rfl
@[simp] theorem State.setActive_lastState (b : Buf6) (s : State) :
    (State.setActive b s).lastState = s.lastState := rfl
@[simp] theorem State.setActive_blockOffset (b : Buf6) (s : State) :
    (State.setActive b s).blockOffset = s.blockOffset := rfl
@[simp] theorem State.setActive_fb (b : Buf6) (s : State) : (State.setActive b s).fb = s.fb := rfl
@[simp] theorem State.setActive_sb (b : Buf6) (s : State) : (State.setActive b s).sb = s.sb := rfl
@[simp] theorem State.setActive_seedArr (b : Buf6) (s : State) : (State.setActive b s).seedArr = s.seedArr := rfl
@[simp] theorem State.setActive_keyArr (b : Buf6) (s : State) : (State.setActive b s).keyArr = s.keyArr := rfl
@[simp] theorem State.setActive_ready (b : Buf6) (s : State) : (State.setActive b s).ready = s.ready := rfl
@[simp] theorem State.setActive_active (b : Buf6) (s : State) : (State.setActive b s).active = b := rfl
@[simp] theorem State.setActive_inp (b : Buf6) (s : State) : (State.setActive b s).inp = s.inp := rfl
@[simp] theorem State.setActive_writeHookReg (b : Buf6) (s : State) :
    (State.setActive b s).writeHookReg = s.writeHookReg := rfl
@[simp] theorem State.setActive_streamHookReg (b : Buf6) (s : State) :
    (State.setActive b s).streamHookReg = s.streamHookReg := rfl
@[simp] theorem State.setActive_refused (b : Buf6) (s : State) : (State.setActive b s).refused = s.refused := rfl
@[simp] theorem State.setActive_started (b : Buf6) (s : State) : (State.setActive b s).started = s.started := rfl
@[simp] theorem State.setActive_events (b : Buf6) (s : State) : (State.setActive b s).events = s.events := rfl
@[simp] theorem State.setActive_calls (b : Buf6) (s : State) : (State.setActive b s).calls = s.calls := rfl
@[simp] theorem State.setActive_turns (b : Buf6) (s : State) : (State.setActive b s).turns = s.turns := rfl
@[simp] theorem State.setActive_collab (b : Buf6) (s : State) : (State.setActive b s).collab = s.collab := rfl
@[simp] theorem State.setActive_draws (b : Buf6) (s : State) : (State.setActive b s).draws = s.draws := rfl
@[simp] theorem State.setActive_trace (b : Buf6) (s : State) : (State.setActive b s).trace = s.trace := rfl

@[simp] theorem State.keySetup_rf (s : State) : (State.keySetup s).rf = s.rf := rfl
@[simp] theorem State.keySetup_state (s : State) : (State.keySetup s).state = s.state := rfl
@[simp] theorem State.keySetup_lastState (s : State) : (State.keySetup s).lastState = s.lastState := rfl
@[simp] theorem State.keySetup_blockOffset (s : State) : (State.keySetup s).blockOffset = s.blockOffset := rfl
@[simp] theorem State.keySetup_fb (s : State) :
    (State.keySetup s).fb = (Config.keySchedule (reversedSeed s.rf) (reversedKey s.rf)).1 := rfl
@[simp] theorem State.keySetup_sb (s : State) :
    (State.keySetup s).sb = (Config.keySchedule (reversedSeed s.rf) (reversedKey s.rf)).2 := rfl
@[simp] theorem State.keySetup_seedArr (s : State) : (State.keySetup s).seedArr = reversedSeed s.rf := rfl
@[simp] theorem State.keySetup_keyArr (s : State) : (State.keySetup s).keyArr = reversedKey s.rf := rfl
@[simp] theorem State.keySetup_ready (s : State) : (State.keySetup s).ready = true := rfl
@[simp] theorem State.keySetup_active (s : State) : (State.keySetup s).active = s.active := rfl
@[simp] theorem State.keySetup_inp (s : State) : (State.keySetup s).inp = s.inp := rfl
@[simp] theorem State.keySetup_writeHookReg (s : State) : (State.keySetup s).writeHookReg = s.writeHookReg := rfl
@[simp] theorem State.keySetup_streamHookReg (s : State) : (State.keySetup s).streamHookReg = s.streamHookReg := rfl
@[simp] theorem State.keySetup_refused (s : State) : (State.keySetup s).refused = s.refused := rfl
@[simp] theorem State.keySetup_started (s : State) : (State.keySetup s).started = s.started := rfl
@[simp] theorem State.keySetup_events (s : State) : (State.keySetup s).events = s.events := rfl
@[simp] theorem State.keySetup_calls (s : State) : (State.keySetup s).calls = s.calls := rfl
@[simp] theorem State.keySetup_turns (s : State) : (State.keySetup s).turns = s.turns := rfl
@[simp] theorem State.keySetup_collab (s : State) : (State.keySetup s).collab = s.collab := rfl
@[simp] theorem State.keySetup_draws (s : State) : (State.keySetup s).draws = s.draws := rfl
@[simp] theorem State.keySetup_trace (s : State) : (State.keySetup s).trace = s.trace := rfl

@[simp] theorem State.forceDisable_rf (cur raw : Byte) (s : State) : (State.forceDisable cur raw s).rf = s.rf := rfl
@[simp] theorem State.forceDisable_state (cur raw : Byte) (s : State) :
    (State.forceDisable cur raw s).state = s.state := rfl
@[simp] theorem State.forceDisable_lastState (cur raw : Byte) (s : State) :
    (State.forceDisable cur raw s).lastState = s.lastState := rfl
@[simp] theorem State.forceDisable_blockOffset (cur raw : Byte) (s : State) :
    (State.forceDisable cur raw s).blockOffset = s.blockOffset := rfl
@[simp] theorem State.forceDisable_fb (cur raw : Byte) (s : State) : (State.forceDisable cur raw s).fb = s.fb := rfl
@[simp] theorem State.forceDisable_sb (cur raw : Byte) (s : State) : (State.forceDisable cur raw s).sb = s.sb := rfl
@[simp] theorem State.forceDisable_seedArr (cur raw : Byte) (s : State) :
    (State.forceDisable cur raw s).seedArr = s.seedArr := rfl
@[simp] theorem State.forceDisable_keyArr (cur raw : Byte) (s : State) :
    (State.forceDisable cur raw s).keyArr = s.keyArr := rfl
@[simp] theorem State.forceDisable_ready (cur raw : Byte) (s : State) :
    (State.forceDisable cur raw s).ready = readyAfterTest cur raw s.ready := rfl
@[simp] theorem State.forceDisable_active (cur raw : Byte) (s : State) :
    (State.forceDisable cur raw s).active = s.active := rfl
@[simp] theorem State.forceDisable_inp (cur raw : Byte) (s : State) :
    (State.forceDisable cur raw s).inp = s.inp := rfl
@[simp] theorem State.forceDisable_writeHookReg (cur raw : Byte) (s : State) :
    (State.forceDisable cur raw s).writeHookReg = s.writeHookReg := rfl
@[simp] theorem State.forceDisable_streamHookReg (cur raw : Byte) (s : State) :
    (State.forceDisable cur raw s).streamHookReg = s.streamHookReg := rfl
@[simp] theorem State.forceDisable_refused (cur raw : Byte) (s : State) :
    (State.forceDisable cur raw s).refused = s.refused := rfl
@[simp] theorem State.forceDisable_started (cur raw : Byte) (s : State) :
    (State.forceDisable cur raw s).started = s.started := rfl
@[simp] theorem State.forceDisable_events (cur raw : Byte) (s : State) :
    (State.forceDisable cur raw s).events = s.events := rfl
@[simp] theorem State.forceDisable_calls (cur raw : Byte) (s : State) :
    (State.forceDisable cur raw s).calls = s.calls := rfl
@[simp] theorem State.forceDisable_turns (cur raw : Byte) (s : State) :
    (State.forceDisable cur raw s).turns = s.turns := rfl
@[simp] theorem State.forceDisable_collab (cur raw : Byte) (s : State) :
    (State.forceDisable cur raw s).collab = s.collab := rfl
@[simp] theorem State.forceDisable_draws (cur raw : Byte) (s : State) :
    (State.forceDisable cur raw s).draws = s.draws := rfl
@[simp] theorem State.forceDisable_trace (cur raw : Byte) (s : State) :
    (State.forceDisable cur raw s).trace = s.trace := rfl

@[simp] theorem State.respond_rf (pt : List Byte) (start : Byte) (s : State) :
    (State.respond pt start s).rf = s.rf := rfl
@[simp] theorem State.respond_state (pt : List Byte) (start : Byte) (s : State) :
    (State.respond pt start s).state = s.state := rfl
@[simp] theorem State.respond_lastState (pt : List Byte) (start : Byte) (s : State) :
    (State.respond pt start s).lastState = s.lastState := rfl
@[simp] theorem State.respond_blockOffset (pt : List Byte) (start : Byte) (s : State) :
    (State.respond pt start s).blockOffset = s.blockOffset := rfl
@[simp] theorem State.respond_fb (pt : List Byte) (start : Byte) (s : State) :
    (State.respond pt start s).fb = s.fb := rfl
@[simp] theorem State.respond_sb (pt : List Byte) (start : Byte) (s : State) :
    (State.respond pt start s).sb = s.sb := rfl
@[simp] theorem State.respond_seedArr (pt : List Byte) (start : Byte) (s : State) :
    (State.respond pt start s).seedArr = s.seedArr := rfl
@[simp] theorem State.respond_keyArr (pt : List Byte) (start : Byte) (s : State) :
    (State.respond pt start s).keyArr = s.keyArr := rfl
@[simp] theorem State.respond_ready (pt : List Byte) (start : Byte) (s : State) :
    (State.respond pt start s).ready = s.ready := rfl
@[simp] theorem State.respond_active (pt : List Byte) (start : Byte) (s : State) :
    (State.respond pt start s).active = s.active := rfl
@[simp] theorem State.respond_inp (pt : List Byte) (start : Byte) (s : State) :
    (State.respond pt start s).inp = s.inp := rfl
@[simp] theorem State.respond_writeHookReg (pt : List Byte) (start : Byte) (s : State) :
    (State.respond pt start s).writeHookReg = s.writeHookReg := rfl
@[simp] theorem State.respond_streamHookReg (pt : List Byte) (start : Byte) (s : State) :
    (State.respond pt start s).streamHookReg = s.streamHookReg := rfl
@[simp] theorem State.respond_refused (pt : List Byte) (start : Byte) (s : State) :
    (State.respond pt start s).refused = s.refused := rfl
@[simp] theorem State.respond_started (pt : List Byte) (start : Byte) (s : State) :
    (State.respond pt start s).started = s.started := rfl
@[simp] theorem State.respond_events (pt : List Byte) (start : Byte) (s : State) :
    (State.respond pt start s).events = s.events := rfl
@[simp] theorem State.respond_calls (pt : List Byte) (start : Byte) (s : State) :
    (State.respond pt start s).calls = s.calls := rfl
@[simp] theorem State.respond_turns (pt : List Byte) (start : Byte) (s : State) :
    (State.respond pt start s).turns = s.turns := rfl
@[simp] theorem State.respond_collab (pt : List Byte) (start : Byte) (s : State) :
    (State.respond pt start s).collab = s.collab := rfl
@[simp] theorem State.respond_draws (pt : List Byte) (start : Byte) (s : State) :
    (State.respond pt start s).draws = s.draws := rfl
@[simp] theorem State.respond_trace (pt : List Byte) (start : Byte) (s : State) :
    (State.respond pt start s).trace = s.trace ++ [.response (xform s pt start)] := rfl

end Sys2Proof.Machine
end

