-- ==== Sys2Proof/Laws/Ops.lean ====
section
/-! SUPPORT. What each shared operation can do, said once: the outcome of the checks, the collaborators' calls, the
fields a data write leaves alone, and what is taken as the next step. -/

namespace Sys2Proof.Machine

/-- After STARTUP the operation's own next state is the outcome (R243). -/
@[simp] theorem whenStarted_started {s : State} (h : s.started = true) (t : State) : whenStarted s t = .next t := by
  simp [whenStarted, h]

/-- Before STARTUP the outcome is the BeforeStartup refusal (R271). -/
theorem whenStarted_before {s : State} (h : s.started = false) (t : State) :
    whenStarted s t = .next (s.refuse .beforeStartup) := by simp [whenStarted, refuseWith, h]

/-- Before STARTUP every refusal is BeforeStartup (R271). -/
theorem refuseWith_before {s : State} (h : s.started = false) (r : RefuseReason) :
    refuseWith r s = .next (s.refuse .beforeStartup) := by simp [refuseWith, h]

/-- After STARTUP a refusal has its own name (R243). -/
@[simp] theorem refuseWith_started {s : State} (h : s.started = true) (r : RefuseReason) :
    refuseWith r s = .next (s.refuse r) := by simp [refuseWith, h]

/-- What a checked operation can answer. -/
theorem whenStarted_cases {s t u : State} (h : whenStarted s t = .next u) :
    (s.started = true ∧ u = t) ∨ (s.started = false ∧ u = s.refuse .beforeStartup) := by
  cases hs : s.started
  · exact .inr ⟨rfl, (Host.Outcome.next.inj ((whenStarted_before hs t).symm.trans h)).symm⟩
  · exact .inl ⟨rfl, (Host.Outcome.next.inj ((whenStarted_started hs t).symm.trans h)).symm⟩

/-- What a refused input can answer. -/
theorem refuseWith_cases {s u : State} {r : RefuseReason} (h : refuseWith r s = .next u) : ∃ r', u = s.refuse r' :=
  ⟨_, (Host.Outcome.next.inj h).symm⟩

/-- A selected read operation is a checked operation (R83). -/
theorem whenSelected_selected {op : Instr} {s : State} (h : selectRead s.state = op) (t : State) :
    whenSelected op s t = whenStarted s t := if_pos h

/-- What a read operation can answer. -/
theorem whenSelected_cases {op : Instr} {s t u : State} (h : whenSelected op s t = .next u) :
    (selectRead s.state = op ∧ s.started = true ∧ u = t) ∨ ∃ r, u = s.refuse r := by
  unfold whenSelected at h
  split at h
  · rename_i hsel
    rcases whenStarted_cases h with ⟨h1, h2⟩ | ⟨_, h2⟩
    · exact .inl ⟨hsel, h1, h2⟩
    · exact .inr ⟨_, h2⟩
  · exact .inr (refuseWith_cases h)

/-- The cipher is active exactly when RF[0xF0] = 0xAA and `ready` = 1 (R120). -/
theorem cipherActive_iff (s : State) : cipherActive s = true ↔ s.rf.read 0xF0 = 0xAA ∧ s.ready = true := by
  rw [cipherActive, Bool.and_eq_true, decide_eq_true_eq]
  rfl

/-- While the cipher is inactive a response is its plaintext (R121). -/
theorem xform_inactive {s : State} (h : cipherActive s = false) (pt : List Byte) (start : Byte) :
    xform s pt start = pt := by simp [xform, h]

/-- The transform reads RF[0xF0], `ready` and the tables only: moving the read cursor does not change it (R171). -/
@[simp] theorem xform_setCursor (c : Option Byte × Byte) (s : State) (pt : List Byte) (start : Byte) :
    xform (s.setCursor c) pt start = xform s pt start := rfl

/-- Encryption keeps the length of a response (R84). -/
@[simp] theorem encryptFrom_length (fb sb : Table) (start : Byte) (pt : List Byte) :
    (encryptFrom fb sb start pt).length = pt.length := by
  induction pt generalizing start with
  | nil => rfl
  | cons p ps ih => simp [encryptFrom, ih]

/-- The outputs of a collaborator's call back: a refusal, or none (R243). -/
def callBackOutputs (c : Collab) : List Output := if c.callsBack then [.refusal .reentrant] else []

/-- All that calling a collaborator does to the block (R252). -/
theorem collaboratorCalled_eq (s : State) :
    s.collaboratorCalled =
      { s with refused := s.refused || s.collab.callsBack, trace := s.trace ++ callBackOutputs s.collab } := by
  cases h : s.collab.callsBack <;> simp [State.collaboratorCalled, callBackOutputs, State.refuse, h]

/-- All that the write notification does to the block (R146). -/
theorem notifyWrite_eq (a : Byte) (n : Nat) (s : State) :
    s.notifyWrite a n =
      { s with
        refused := s.refused || (s.writeHookReg && s.collab.callsBack)
        trace := s.trace ++ if s.writeHookReg then .notify a n :: callBackOutputs s.collab else [] } := by
  cases h : s.writeHookReg
  · simp only [State.notifyWrite, h, Bool.false_eq_true, if_false, Bool.false_and, Bool.or_false, List.append_nil]
    rw [← h]
  · simp [State.notifyWrite, collaboratorCalled_eq, State.emit, h]

/-- A reply that the input fixes (R225). -/
@[simp] theorem hookAnswer_given {s : State} {reply : Option Buf6} (h : s.collab.reply = .given reply) :
    s.hookAnswer = reply := by simp [State.hookAnswer, h]

/-- A reply that nothing fixes is this ask's own draw (R225). -/
@[simp] theorem hookAnswer_draw {s : State} (h : s.collab.reply = .draw) : s.hookAnswer = Config.hookReply s.draws := by
  simp [State.hookAnswer, h]

/-- The answer depends on the collaborator and the number of the draw alone: no field of the block plays a part (R225). -/
theorem hookAnswer_congr {s t : State} (hc : t.collab = s.collab) (hd : t.draws = s.draws) :
    t.hookAnswer = s.hookAnswer := by simp [State.hookAnswer, hc, hd]

/-- All that the streaming hook does to the block (R172, R224). -/
theorem askStreamHook_eq (sent : Buf6) (s : State) :
    s.askStreamHook sent =
      { s with
        active := if s.streamHookReg then s.hookAnswer.getD s.active else s.active
        draws := if s.streamHookReg then s.draws + 1 else s.draws
        refused := s.refused || (s.streamHookReg && s.collab.callsBack)
        trace := s.trace ++ if s.streamHookReg then .hookAsked sent :: callBackOutputs s.collab else [] } := by
  cases h : s.streamHookReg
  · simp only [State.askStreamHook, h, Bool.false_eq_true, if_false, Bool.false_and, Bool.or_false, List.append_nil]
    rw [← h]
  · simp [State.askStreamHook, State.takeReply, collaboratorCalled_eq, State.emit, h]
    rfl

/-- What one data byte can do: RF at the cursor, `ready` and the key schedule; no other field changes (R143). -/
theorem storeByte_eq (cur raw : Byte) (s : State) :
    storeByte cur raw s =
      { s with
        rf := (storeByte cur raw s).rf
        ready := (storeByte cur raw s).ready
        fb := (storeByte cur raw s).fb
        sb := (storeByte cur raw s).sb
        seedArr := (storeByte cur raw s).seedArr
        keyArr := (storeByte cur raw s).keyArr } := by
  unfold storeByte
  dsimp only
  split <;> rfl

@[simp] theorem storeByte_state (cur raw : Byte) (s : State) : (storeByte cur raw s).state = s.state :=
  (congrArg State.state (storeByte_eq cur raw s) :)
@[simp] theorem storeByte_lastState (cur raw : Byte) (s : State) : (storeByte cur raw s).lastState = s.lastState :=
  (congrArg State.lastState (storeByte_eq cur raw s) :)
@[simp] theorem storeByte_blockOffset (cur raw : Byte) (s : State) : (storeByte cur raw s).blockOffset = s.blockOffset :=
  (congrArg State.blockOffset (storeByte_eq cur raw s) :)
@[simp] theorem storeByte_active (cur raw : Byte) (s : State) : (storeByte cur raw s).active = s.active :=
  (congrArg State.active (storeByte_eq cur raw s) :)
@[simp] theorem storeByte_inp (cur raw : Byte) (s : State) : (storeByte cur raw s).inp = s.inp :=
  (congrArg State.inp (storeByte_eq cur raw s) :)
@[simp] theorem storeByte_writeHookReg (cur raw : Byte) (s : State) : (storeByte cur raw s).writeHookReg = s.writeHookReg :=
  (congrArg State.writeHookReg (storeByte_eq cur raw s) :)
@[simp] theorem storeByte_streamHookReg (cur raw : Byte) (s : State) : (storeByte cur raw s).streamHookReg = s.streamHookReg :=
  (congrArg State.streamHookReg (storeByte_eq cur raw s) :)
@[simp] theorem storeByte_refused (cur raw : Byte) (s : State) : (storeByte cur raw s).refused = s.refused :=
  (congrArg State.refused (storeByte_eq cur raw s) :)
@[simp] theorem storeByte_started (cur raw : Byte) (s : State) : (storeByte cur raw s).started = s.started :=
  (congrArg State.started (storeByte_eq cur raw s) :)
@[simp] theorem storeByte_events (cur raw : Byte) (s : State) : (storeByte cur raw s).events = s.events :=
  (congrArg State.events (storeByte_eq cur raw s) :)
@[simp] theorem storeByte_calls (cur raw : Byte) (s : State) : (storeByte cur raw s).calls = s.calls :=
  (congrArg State.calls (storeByte_eq cur raw s) :)
@[simp] theorem storeByte_turns (cur raw : Byte) (s : State) : (storeByte cur raw s).turns = s.turns :=
  (congrArg State.turns (storeByte_eq cur raw s) :)
@[simp] theorem storeByte_collab (cur raw : Byte) (s : State) : (storeByte cur raw s).collab = s.collab :=
  (congrArg State.collab (storeByte_eq cur raw s) :)
@[simp] theorem storeByte_draws (cur raw : Byte) (s : State) : (storeByte cur raw s).draws = s.draws :=
  (congrArg State.draws (storeByte_eq cur raw s) :)
@[simp] theorem storeByte_trace (cur raw : Byte) (s : State) : (storeByte cur raw s).trace = s.trace :=
  (congrArg State.trace (storeByte_eq cur raw s) :)

/-- The memory after one data byte. -/
theorem storeByte_rf (cur raw : Byte) (s : State) :
    (storeByte cur raw s).rf = s.rf.write cur (storedValue (s.forceDisable cur raw) cur raw) := by
  unfold storeByte
  dsimp only
  split <;> rfl

/-- What the data bytes of an event can do: RF, `ready` and the key schedule; no other field changes (R143). -/
theorem storeBytes_eq (cur : Byte) (d : List Byte) (s : State) :
    storeBytes cur d s =
      { s with
        rf := (storeBytes cur d s).rf
        ready := (storeBytes cur d s).ready
        fb := (storeBytes cur d s).fb
        sb := (storeBytes cur d s).sb
        seedArr := (storeBytes cur d s).seedArr
        keyArr := (storeBytes cur d s).keyArr } := by
  induction d generalizing cur s with
  | nil => rfl
  | cons raw rest ih =>
    simp only [storeBytes]
    conv_lhs => rw [ih]
    simp

@[simp] theorem storeBytes_state (cur : Byte) (d : List Byte) (s : State) : (storeBytes cur d s).state = s.state :=
  (congrArg State.state (storeBytes_eq cur d s) :)
@[simp] theorem storeBytes_lastState (cur : Byte) (d : List Byte) (s : State) : (storeBytes cur d s).lastState = s.lastState :=
  (congrArg State.lastState (storeBytes_eq cur d s) :)
@[simp] theorem storeBytes_blockOffset (cur : Byte) (d : List Byte) (s : State) : (storeBytes cur d s).blockOffset = s.blockOffset :=
  (congrArg State.blockOffset (storeBytes_eq cur d s) :)
@[simp] theorem storeBytes_active (cur : Byte) (d : List Byte) (s : State) : (storeBytes cur d s).active = s.active :=
  (congrArg State.active (storeBytes_eq cur d s) :)
@[simp] theorem storeBytes_inp (cur : Byte) (d : List Byte) (s : State) : (storeBytes cur d s).inp = s.inp :=
  (congrArg State.inp (storeBytes_eq cur d s) :)
@[simp] theorem storeBytes_writeHookReg (cur : Byte) (d : List Byte) (s : State) : (storeBytes cur d s).writeHookReg = s.writeHookReg :=
  (congrArg State.writeHookReg (storeBytes_eq cur d s) :)
@[simp] theorem storeBytes_streamHookReg (cur : Byte) (d : List Byte) (s : State) : (storeBytes cur d s).streamHookReg = s.streamHookReg :=
  (congrArg State.streamHookReg (storeBytes_eq cur d s) :)
@[simp] theorem storeBytes_refused (cur : Byte) (d : List Byte) (s : State) : (storeBytes cur d s).refused = s.refused :=
  (congrArg State.refused (storeBytes_eq cur d s) :)
@[simp] theorem storeBytes_started (cur : Byte) (d : List Byte) (s : State) : (storeBytes cur d s).started = s.started :=
  (congrArg State.started (storeBytes_eq cur d s) :)
@[simp] theorem storeBytes_events (cur : Byte) (d : List Byte) (s : State) : (storeBytes cur d s).events = s.events :=
  (congrArg State.events (storeBytes_eq cur d s) :)
@[simp] theorem storeBytes_calls (cur : Byte) (d : List Byte) (s : State) : (storeBytes cur d s).calls = s.calls :=
  (congrArg State.calls (storeBytes_eq cur d s) :)
@[simp] theorem storeBytes_turns (cur : Byte) (d : List Byte) (s : State) : (storeBytes cur d s).turns = s.turns :=
  (congrArg State.turns (storeBytes_eq cur d s) :)
@[simp] theorem storeBytes_collab (cur : Byte) (d : List Byte) (s : State) : (storeBytes cur d s).collab = s.collab :=
  (congrArg State.collab (storeBytes_eq cur d s) :)
@[simp] theorem storeBytes_draws (cur : Byte) (d : List Byte) (s : State) : (storeBytes cur d s).draws = s.draws :=
  (congrArg State.draws (storeBytes_eq cur d s) :)
@[simp] theorem storeBytes_trace (cur : Byte) (d : List Byte) (s : State) : (storeBytes cur d s).trace = s.trace :=
  (congrArg State.trace (storeBytes_eq cur d s) :)

/-- The data bytes keep the memory's canonical form. -/
theorem wf_storeBytes {s : State} (h : s.rf.wf) (cur : Byte) (d : List Byte) : (storeBytes cur d s).rf.wf := by
  induction d generalizing cur s with
  | nil => exact h
  | cons raw rest ih => exact ih (by rw [storeByte_rf]; exact Memory.wf_write h _ _) (cur + 1)

/-- The outcome of the first bytes of an event feeds the rest (R142). -/
theorem storeBytes_append (cur : Byte) (d e : List Byte) (s : State) :
    storeBytes cur (d ++ e) s = storeBytes (writeCursor cur d.length) e (storeBytes cur d s) := by
  induction d generalizing cur s with
  | nil => simp [storeBytes, writeCursor]
  | cons raw rest ih =>
    have hc : writeCursor (cur + 1) rest.length = writeCursor cur (raw :: rest).length := by
      simp only [writeCursor, List.length_cons]
      apply BitVec.eq_of_toNat_eq
      simp; omega
    simp only [List.cons_append, storeBytes, ih, hc]

/-- What is taken as the next step: the oldest of one agent's pending steps, or nothing (R245, R250). -/
theorem fetch_cases (s : State) :
    (∃ e es, s.events = e :: es ∧
      fetch s = some (e.frame, { s with events := es, turns := s.turns.tail, collab := e.collab })) ∨
    (∃ c cs, s.calls = c :: cs ∧
      fetch s = some (c.frame, { s with calls := cs, turns := s.turns.tail, collab := Collab.silent })) ∨
    (s.events = [] ∧ s.calls = [] ∧ fetch s = none) := by
  cases ht : appTurn s <;> cases he : s.events <;> cases hc : s.calls <;>
    simp [fetch, takeCall, takeEvent, ht, he, hc]

end Sys2Proof.Machine
end

