-- ==== Sys2Proof/Laws/Exec.lean ====
section
/-! SUPPORT. What an operation and a step can do, said once: an operation has its own effect, under the conditions the
spec gives it, or is refused; a step runs the operation taken, refuses it, or waits. -/

namespace Sys2Proof.Machine

@[simp] theorem State.startupWith_rf (m : Memory) (s : State) :
    (State.startupWith m s).rf = m := rfl
@[simp] theorem State.startupWith_state (m : Memory) (s : State) :
    (State.startupWith m s).state = State.reset.state := rfl
@[simp] theorem State.startupWith_lastState (m : Memory) (s : State) :
    (State.startupWith m s).lastState = State.reset.lastState := rfl
@[simp] theorem State.startupWith_blockOffset (m : Memory) (s : State) :
    (State.startupWith m s).blockOffset = State.reset.blockOffset := rfl
@[simp] theorem State.startupWith_fb (m : Memory) (s : State) :
    (State.startupWith m s).fb = State.reset.fb := rfl
@[simp] theorem State.startupWith_sb (m : Memory) (s : State) :
    (State.startupWith m s).sb = State.reset.sb := rfl
@[simp] theorem State.startupWith_seedArr (m : Memory) (s : State) :
    (State.startupWith m s).seedArr = State.reset.seedArr := rfl
@[simp] theorem State.startupWith_keyArr (m : Memory) (s : State) :
    (State.startupWith m s).keyArr = State.reset.keyArr := rfl
@[simp] theorem State.startupWith_ready (m : Memory) (s : State) :
    (State.startupWith m s).ready = State.reset.ready := rfl
@[simp] theorem State.startupWith_active (m : Memory) (s : State) :
    (State.startupWith m s).active = State.reset.active := rfl
@[simp] theorem State.startupWith_inp (m : Memory) (s : State) :
    (State.startupWith m s).inp = State.reset.inp := rfl
@[simp] theorem State.startupWith_writeHookReg (m : Memory) (s : State) :
    (State.startupWith m s).writeHookReg = State.reset.writeHookReg := rfl
@[simp] theorem State.startupWith_streamHookReg (m : Memory) (s : State) :
    (State.startupWith m s).streamHookReg = State.reset.streamHookReg := rfl
@[simp] theorem State.startupWith_refused (m : Memory) (s : State) :
    (State.startupWith m s).refused = s.refused := rfl
@[simp] theorem State.startupWith_started (m : Memory) (s : State) :
    (State.startupWith m s).started = State.reset.started := rfl
@[simp] theorem State.startupWith_events (m : Memory) (s : State) :
    (State.startupWith m s).events = s.events := rfl
@[simp] theorem State.startupWith_calls (m : Memory) (s : State) :
    (State.startupWith m s).calls = s.calls := rfl
@[simp] theorem State.startupWith_turns (m : Memory) (s : State) :
    (State.startupWith m s).turns = s.turns := rfl
@[simp] theorem State.startupWith_collab (m : Memory) (s : State) :
    (State.startupWith m s).collab = s.collab := rfl
@[simp] theorem State.startupWith_draws (m : Memory) (s : State) :
    (State.startupWith m s).draws = s.draws := rfl
@[simp] theorem State.startupWith_trace (m : Memory) (s : State) :
    (State.startupWith m s).trace = s.trace := rfl

/-- The operation's own effect and the conditions under which it has it. -/
def HasEffect : Instr → State → State → Prop
  | .wrAddr a, s, t => s.started = true ∧ t = { s with state := a }
  | .wrData a d, s, t =>
    s.started = true ∧ 1 ≤ d.length ∧ d.length ≤ 7 ∧ t = (storeBytes a d s).notifyWrite a d.length
  | .rdReport, s, t =>
    s.started = true ∧ selectRead s.state = .rdReport ∧
      t = ((s.setCursor (some reportReg, 0x00)).respond s.active.toList reportReg).askStreamHook s.active
  | .rdId, s, t =>
    s.started = true ∧ selectRead s.state = .rdId ∧
      t = (s.setCursor (some idReg, 0x00)).respond (s.rf.readRange idReg 6) idReg
  | .rdCal, s, t =>
    s.started = true ∧ selectRead s.state = .rdCal ∧
      t = (s.setCursor (calCursor s.state s.lastState)).respond
        (s.rf.readRange (sliceStart s.state (calCursor s.state s.lastState).2) 8)
        (sliceStart s.state (calCursor s.state s.lastState).2)
  | .rdBlock, s, t =>
    s.started = true ∧ selectRead s.state = .rdBlock ∧
      t = (s.setCursor (blockCursor s.state s.lastState s.blockOffset)).respond
        (s.rf.readRange (sliceStart s.state (blockCursor s.state s.lastState s.blockOffset).2) 8)
        (sliceStart s.state (blockCursor s.state s.lastState s.blockOffset).2)
  | .rfGet a, s, t => s.started = true ∧ t = s.emit (.rfGetResult (s.rf.read a))
  | .setInput u, s, t => s.started = true ∧ t = { s with inp := Input.set u s.inp }
  | .encode, s, t => s.started = true ∧ t = s.emit (.encodeResult (encodeReport s.inp))
  | .bufPoke i v, s, t => s.started = true ∧ i ≤ 5 ∧ t = s.setActive (s.active.setIfInBounds i v)
  | .bufSwap b, s, t => s.started = true ∧ t = (s.setActive b).emit (.swapResult s.active)
  | .regWriteHook r, s, t => s.started = true ∧ t = { s with writeHookReg := r }
  | .regStreamHook r, s, t => s.started = true ∧ t = { s with streamHookReg := r }
  | .startup, s, t => s.started = false ∧ ∃ m, Memory.startup s.rf = .ok m ∧ t = s.startupWith m

/-- STARTUP before it has completed always has its effect: its writes to RF are never refused (R103, R270). -/
theorem exec_startup_before {s : State} (h : s.started = false) :
    ∃ m, Memory.startup s.rf = .ok m ∧ exec .startup s = .next (s.startupWith m) := by
  refine ⟨_, Memory.startup_eq s.rf, ?_⟩
  simp [exec, execStartup, h, Memory.startup_eq]

/-- What an operation can answer: its own effect, or a refusal. -/
theorem exec_cases {i : Instr} {s t : State} (h : exec i s = .next t) : HasEffect i s t ∨ ∃ r, t = s.refuse r := by
  have run : ∀ {u : State}, whenStarted s u = .next t → (s.started = true ∧ t = u) ∨ ∃ r, t = s.refuse r :=
    fun h => (whenStarted_cases h).imp id fun h => ⟨_, h.2⟩
  have sel : ∀ {op : Instr} {u : State}, whenSelected op s u = .next t →
      (s.started = true ∧ selectRead s.state = op ∧ t = u) ∨ ∃ r, t = s.refuse r :=
    fun h => (whenSelected_cases h).imp (fun h => ⟨h.2.1, h.1, h.2.2⟩) id
  cases i with
  | wrAddr a => exact run h
  | wrData a d =>
    simp only [exec, execWrData] at h
    split at h
    · exact .inr (refuseWith_cases h)
    · split at h
      · exact .inr (refuseWith_cases h)
      · exact (run h).imp (fun h => ⟨h.1, by omega, by omega, h.2⟩) id
  | rdReport => exact sel h
  | rdId => exact sel h
  | rdCal => exact sel h
  | rdBlock => exact sel h
  | rfGet a => exact run h
  | setInput u => exact run h
  | encode => exact run h
  | bufPoke i v =>
    simp only [exec, execBufPoke] at h
    split at h
    · exact .inr (refuseWith_cases h)
    · exact (run h).imp (fun h => ⟨h.1, by omega, h.2⟩) id
  | bufSwap b => exact run h
  | regWriteHook r => exact run h
  | regStreamHook r => exact run h
  | startup =>
    simp only [exec, execStartup] at h
    cases hs : s.started
    · rw [if_neg (by simp [hs])] at h
      split at h
      · rename_i m hm
        exact .inl ⟨hs, m, hm, (Host.Outcome.next.inj h).symm⟩
      · exact .inr ⟨_, (Host.Outcome.next.inj h).symm⟩
    · rw [if_pos hs] at h
      exact .inr (refuseWith_cases h)

/-- The state in which the step taken runs differs from the one before it only in the pending inputs (R69). -/
theorem fetch_eq {s t : State} {f : Frame} (h : fetch s = some (f, t)) :
    t = { s with events := t.events, calls := t.calls, turns := t.turns, collab := t.collab } := by
  rcases fetch_cases s with ⟨e, es, _, he⟩ | ⟨c, cs, _, hc⟩ | ⟨_, _, hn⟩
  · obtain ⟨-, rfl⟩ := Prod.mk.inj (Option.some.inj (he.symm.trans h)); rfl
  · obtain ⟨-, rfl⟩ := Prod.mk.inj (Option.some.inj (hc.symm.trans h)); rfl
  · exact nomatch hn.symm.trans h

/-- What a step can answer: nothing was pending, or the operation taken ran or was refused. -/
theorem step_cases {s t : State} (h : step s = .next t) :
    (fetch s = none ∧ t = s) ∨
      ∃ f u, fetch s = some (f, u) ∧ ((∃ i, decode u.state f = .ok i ∧ exec i u = .next t) ∨ ∃ r, t = u.refuse r) := by
  unfold step at h
  split at h
  · rename_i f u hf
    refine .inr ⟨f, u, hf, ?_⟩
    unfold perform at h
    split at h
    · exact .inl ⟨_, by assumption, h⟩
    · exact .inr (refuseWith_cases h)
  · exact .inl ⟨by assumption, (Host.Outcome.next.inj h).symm⟩

end Sys2Proof.Machine
end

