-- ==== Sys2Proof/Laws/PerInstr.lean ====
section
/-! SUPPORT. The per-instruction family: each operation's frame has the format its row of the opcode table gives it
(R81, R83, R86, R92). -/

namespace Sys2Proof.Laws

/-- The four formats of the opcode table (R92). -/
inductive Format where
  | w1 | wn | rd | app
deriving DecidableEq, Repr

/-- The format of an operation's row. -/
def format : Instr → Format
  | .wrAddr _ => .w1
  | .wrData _ _ => .wn
  | .rdReport => .rd
  | .rdId => .rd
  | .rdCal => .rd
  | .rdBlock => .rd
  | .rfGet _ => .app
  | .setInput _ => .app
  | .encode => .app
  | .bufPoke _ _ => .app
  | .bufSwap _ => .app
  | .regWriteHook _ => .app
  | .regStreamHook _ => .app
  | .startup => .app

/-- The frame has the format: an event of one byte, an event of 2 to 8 bytes, a read event, a call. -/
def hasFormat : Format → Frame → Prop
  | .w1, .write bytes => bytes.length = 1
  | .wn, .write bytes => 2 ≤ bytes.length ∧ bytes.length ≤ 8
  | .rd, .read => True
  | .app, .call _ _ => True
  | _, _ => False

/-- A well-formed operation's frame has its row's format. -/
def EncodedFormat.Statement (i : Instr) : Prop := i.wellFormed = true → hasFormat (format i) (encode i)

theorem EncodedFormat.wrAddr (a : Byte) : EncodedFormat.Statement (.wrAddr a) := fun _ => rfl

theorem EncodedFormat.wrData (a : Byte) (d : List Byte) : EncodedFormat.Statement (.wrData a d) := fun h => by
  simp only [Instr.wellFormed, Bool.and_eq_true, decide_eq_true_eq] at h
  simp only [format, encode, hasFormat, List.length_cons]
  omega

theorem EncodedFormat.rdReport : EncodedFormat.Statement .rdReport := fun _ => trivial

theorem EncodedFormat.rdId : EncodedFormat.Statement .rdId := fun _ => trivial

theorem EncodedFormat.rdCal : EncodedFormat.Statement .rdCal := fun _ => trivial

theorem EncodedFormat.rdBlock : EncodedFormat.Statement .rdBlock := fun _ => trivial

theorem EncodedFormat.rfGet (a : Byte) : EncodedFormat.Statement (.rfGet a) := fun _ => trivial

theorem EncodedFormat.setInput (u : InputWrite) : EncodedFormat.Statement (.setInput u) := fun _ => by
  cases u <;> exact trivial

theorem EncodedFormat.encode : EncodedFormat.Statement .encode := fun _ => trivial

theorem EncodedFormat.bufPoke (i : Nat) (v : Byte) : EncodedFormat.Statement (.bufPoke i v) := fun _ => trivial

theorem EncodedFormat.bufSwap (b : Buf6) : EncodedFormat.Statement (.bufSwap b) := fun _ => trivial

theorem EncodedFormat.regWriteHook (r : Bool) : EncodedFormat.Statement (.regWriteHook r) := fun _ => trivial

theorem EncodedFormat.regStreamHook (r : Bool) : EncodedFormat.Statement (.regStreamHook r) := fun _ => trivial

theorem EncodedFormat.startup : EncodedFormat.Statement .startup := fun _ => trivial

end Sys2Proof.Laws
end

