-- ==== Sys2Proof/Machine/Program.lean ====
section
/-! DEFINITION. Event programs (R90, R91): one operation per line, each line put in its agent's queue with its turn,
so that the lines run in the order written. -/

namespace Sys2Proof.Machine

/-- A line of an event program, one constructor per form of R90. -/
inductive Line where
  /-- `W aa` -/
  | w (a : Byte)
  /-- `W aa: d0 d1 …` -/
  | wData (a : Byte) (d : List Byte)
  /-- `R` -/
  | r
  /-- `R ~ some B` and `R ~ NONE` -/
  | rReply (reply : Option Buf6)
  /-- `APP get aa` -/
  | appGet (a : Byte)
  /-- `APP set f v` -/
  | appSet (u : InputWrite)
  /-- `APP encode` -/
  | appEncode
  /-- `APP poke i vv` -/
  | appPoke (i : Nat) (v : Byte)
  /-- `APP swap b0 … b5` -/
  | appSwap (b : Buf6)
  /-- `APP hookw r` -/
  | appHookW (r : Bool)
  /-- `APP hooks r` -/
  | appHookS (r : Bool)
deriving DecidableEq, Repr

/-- An event put last in the transport's queue, with its turn. -/
def State.queueEvent (e : Event) (s : State) : State :=
  { s with events := s.events ++ [e], turns := s.turns ++ [.ev] }

/-- A frame put last in its agent's queue, with its turn. A collaborator asked in a read replies freely (R225). -/
def State.queueFrame (f : Frame) (s : State) : State :=
  match f with
  | .call op args => { s with calls := s.calls ++ [⟨op, args⟩], turns := s.turns ++ [.app] }
  | .write bytes => s.queueEvent (.write bytes Collab.silent)
  | .read => s.queueEvent (.read Collab.free)

/-- A line put last in its agent's queue. A plain `R` leaves the reply a free draw (R225). -/
def State.queueLine (l : Line) (s : State) : State :=
  match l with
  | .w a => s.queueFrame (encode (.wrAddr a))
  | .wData a d => s.queueFrame (encode (.wrData a d))
  | .r => s.queueFrame .read
  | .rReply reply => s.queueEvent (.read ⟨.given reply, false⟩)
  | .appGet a => s.queueFrame (encode (.rfGet a))
  | .appSet u => s.queueFrame (encode (.setInput u))
  | .appEncode => s.queueFrame (encode .encode)
  | .appPoke i v => s.queueFrame (encode (.bufPoke i v))
  | .appSwap b => s.queueFrame (encode (.bufSwap b))
  | .appHookW r => s.queueFrame (encode (.regWriteHook r))
  | .appHookS r => s.queueFrame (encode (.regStreamHook r))

/-- The state with a program's lines pending, in order. -/
def State.load : List Line → State → State
  | [], s => s
  | l :: ls, s => State.load ls (s.queueLine l)

/-- The pseudo-operations of R91. -/
inductive Pseudo where
  | read (a : Byte)
  | setKey (s : Seed) (k : Key)
  | enable
  | disable
  /-- PUBLISH swaps in ENCODE's result: the report of the input as it stands when the line is expanded. -/
  | publish (inp : Input)
deriving DecidableEq, Repr

/-- The lines a pseudo-operation stands for (R91); SETKEY's seed and key are in address order. -/
def Pseudo.expand : Pseudo → List Line
  | .read a => [.w a, .r]
  | .setKey s k =>
    [.wData 0x40 [s[0], s[1], s[2], s[3], s[4], s[5]], .wData 0x46 [s[6], s[7], s[8], s[9], k[0], k[1]],
      .wData 0x4C [k[2], k[3], k[4], k[5]]]
  | .enable => [.wData cipherControl [cipherEnable]]
  | .disable => [.wData cipherControl [cipherDisable]]
  | .publish inp => [.appEncode, .appSwap (encodeReport inp)]

end Sys2Proof.Machine
end

