-- ==== Sys2Proof/Tests/Slice0.lean ====
section
/-! SUPPORT. Small tests: ill-formed terms, frames written out by hand from the spec's encodings, one-step results
from `spec/95_test_vectors.md`, and for every obligation with hypotheses a concrete state that meets them. -/

namespace Sys2Proof.Tests

open Sys2Proof Sys2Proof.Machine

/-! ## Well-formedness: one ill-formed term per check -/

theorem test_wf_wr_data_without_data : (Instr.wrData 0x10 []).wellFormed = false := by decide

theorem test_wf_wr_data_of_eight : (Instr.wrData 0x10 [0, 1, 2, 3, 4, 5, 6, 7]).wellFormed = false := by decide

theorem test_wf_buf_poke_six : (Instr.bufPoke 6 0x00).wellFormed = false := by decide

theorem test_wf_bounds_accepted :
    (Instr.wrData 0x10 [0]).wellFormed = true ∧ (Instr.wrData 0x10 [0, 1, 2, 3, 4, 5, 6]).wellFormed = true ∧
      (Instr.bufPoke 5 0x00).wellFormed = true := by decide

/-! ## Decoding: frames written out from R81-R83, R86 -/

/-- Comparable outcome of the decoder. -/
def isOk (r : Except RefuseReason Instr) (i : Instr) : Bool :=
  match r with
  | .ok j => decide (j = i)
  | .error _ => false

/-- Comparable outcome of the decoder. -/
def isError (r : Except RefuseReason Instr) (e : RefuseReason) : Bool :=
  match r with
  | .ok _ => false
  | .error f => decide (f = e)

theorem test_decode_wr_addr : isOk (decode 0x00 (.write [0x20])) (.wrAddr 0x20) = true := by decide

theorem test_decode_wr_data : isOk (decode 0x00 (.write [0x40, 0x00, 0x11, 0x22, 0x33, 0x44, 0x55]))
    (.wrData 0x40 [0x00, 0x11, 0x22, 0x33, 0x44, 0x55]) = true := by decide

theorem test_decode_write_too_long :
    isError (decode 0x00 (.write [0x10, 0, 1, 2, 3, 4, 5, 6, 7])) .writeTooLong = true := by decide

theorem test_decode_rd_report : isOk (decode 0x00 .read) .rdReport = true := by decide

theorem test_decode_rd_id : isOk (decode 0xFA .read) .rdId = true := by decide

theorem test_decode_rd_cal : isOk (decode 0x20 .read) .rdCal = true ∧ isOk (decode 0x30 .read) .rdCal = true := by
  decide

theorem test_decode_rd_block : isOk (decode 0x01 .read) .rdBlock = true ∧ isOk (decode 0x28 .read) .rdBlock = true ∧
    isOk (decode 0xFB .read) .rdBlock = true := by decide

theorem test_decode_rf_get : isOk (decode 0x00 (.call .rfGet [0xFF])) (.rfGet 0xFF) = true ∧
    isError (decode 0x00 (.call .rfGet [0x100])) .addressRange = true := by decide

theorem test_decode_set_input : isOk (decode 0x00 (.call (.setAxis .accelZ) [0x7F])) (.setInput (.axis .accelZ 0x7F)) = true ∧
    isOk (decode 0x00 (.call (.setFlag .a) [1])) (.setInput (.flag .a true)) = true := by decide

theorem test_decode_encode : isOk (decode 0x00 (.call .encode [])) .encode = true := by decide

theorem test_decode_buf_poke : isOk (decode 0x00 (.call .bufPoke [0, 0x80])) (.bufPoke 0 0x80) = true ∧
    isError (decode 0x00 (.call .bufPoke [6, 0x100])) .pokeIndex = true ∧
    isError (decode 0x00 (.call .bufPoke [5, 0x100])) .badArguments = true := by decide

theorem test_decode_buf_swap : isOk (decode 0x00 (.call .bufSwap [0xA0, 0x20, 0x40, 0x40, 0x3F, 0xEF]))
    (.bufSwap #v[0xA0, 0x20, 0x40, 0x40, 0x3F, 0xEF]) = true := by decide

theorem test_decode_reg_write_hook : isOk (decode 0x00 (.call .regWriteHook [1])) (.regWriteHook true) = true := by
  decide

theorem test_decode_reg_stream_hook : isOk (decode 0x00 (.call .regStreamHook [0])) (.regStreamHook false) = true := by
  decide

theorem test_decode_startup : isOk (decode 0x00 (.call .startup [])) .startup = true := by decide

theorem test_decode_app_register_write : isError (decode 0x00 (.call .rfSet [0x10, 0x01])) .appRegisterWrite = true := by
  decide

theorem test_table_words : decodeTableWord 3 0 = some (.wrAddr 0x00) ∧ decodeTableWord 8 0x00 = some .rdReport ∧
    decodeTableWord 8 0xFA = some .rdId ∧ decodeTableWord 8 0x30 = some .rdCal ∧
    decodeTableWord 8 0x21 = some .rdBlock ∧ decodeTableWord 24 0x110520 = some (.wrData 0x20 [0x05, 0x11]) := by decide

/-! ## States and results for one-step tests -/

/-- The next state of an outcome. -/
def nextOf (r : Result) : State :=
  match r with
  | .next t => t
  | .fault _ => State.powerOn
  | .refused _ => State.powerOn

/-- The reset state with `state` and RF's listed cells given. -/
def withRf (st : Byte) (m : Memory) : State := { State.reset with state := st, rf := m }

/-- The identification block of the test vectors, listed (`95_test_vectors.md` section 0). -/
def exampleId : Memory := [(0xFA, 0x00), (0xFB, 0x00), (0xFC, 0xA4), (0xFD, 0x20), (0xFE, 0x01), (0xFF, 0x01)]

/-- Calibration copy A of the test vectors, listed (`95_test_vectors.md` section 0). -/
def exampleCal : Memory := [(0x20, 0x01), (0x21, 0x02), (0x22, 0x03), (0x23, 0x04), (0x24, 0x05), (0x25, 0x06),
  (0x26, 0x07), (0x27, 0x08), (0x28, 0x09), (0x29, 0x0A), (0x2A, 0x0B), (0x2B, 0x0C), (0x2C, 0x0D), (0x2D, 0x0E),
  (0x2E, 0xBE), (0x2F, 0x13)]

/-- A state with the cipher active under the tables of program P2. -/
def underP2 (st : Byte) (m : Memory) : State :=
  { withRf st m with
    fb := #v[0x66, 0x66, 0xAA, 0xAA, 0xEE, 0xEE, 0xCC, 0xCC]
    sb := #v[0x65, 0x43, 0x21, 0xFF, 0xDD, 0x21, 0xFF, 0xDD]
    ready := true }

/-- A state with the cipher active under the second setup's tables of program P5 (V-WR-9). -/
def underP5 : State :=
  { withRf 0x00 [(0xF0, 0xAA)] with
    fb := #v[0xE2, 0xF2, 0xFB, 0xFC, 0xFD, 0xFE, 0xE2, 0xF2]
    sb := #v[0x0C, 0x03, 0x02, 0x01, 0x00, 0x1C, 0x0C, 0x03]
    ready := true }

/-! ## Writes -/

/-- V-WR-1. -/
theorem test_wr_addr : let t := nextOf (exec (.wrAddr 0x20) State.reset)
    t.state = 0x20 ∧ t.rf = [] ∧ t.lastState = none ∧ t.trace = [] := by decide

/-- V-WR-3: the cursor wraps; V-WR-2: the notification carries the event's address and count. -/
theorem test_wr_data_wraps_and_notifies :
    let t := nextOf (exec (.wrData 0xFE [0x11, 0x22, 0x33]) { State.reset with writeHookReg := true })
    t.rf.read 0xFE = 0x11 ∧ t.rf.read 0xFF = 0x22 ∧ t.rf.read 0x00 = 0x33 ∧ t.rf.read 0x01 = 0xFF ∧ t.state = 0x00 ∧
      t.trace = [.notify 0xFE 3] := by
  have h : (nextOf (exec (.wrData 0xFE [0x11, 0x22, 0x33]) { State.reset with writeHookReg := true })).rf =
      ((Memory.write [] 0xFE 0x11).write 0xFF 0x22).write 0x00 0x33 := by
    simp [nextOf, exec, execWrData, whenStarted, notifyWrite_eq, storeBytes, storeByte, storedValue, cipherActive,
      State.forceDisable, readyAfterTest, State.reset, State.writeCell, keySetupCursor]
  simp only [h, Memory.read_write]
  exact ⟨by decide, by decide, by decide, by decide, rfl, rfl⟩

/-- V-WR-10: a decrypted byte, a raw force-disable, then a raw byte. -/
theorem test_wr_data_force_disable : let t := nextOf (exec (.wrData 0xEF [0x00, 0x55, 0x77]) underP5)
    t.rf.read 0xEF = 0xF5 ∧ t.rf.read 0xF0 = 0x55 ∧ t.rf.read 0xF1 = 0x77 ∧ t.ready = false ∧ t.fb = underP5.fb := by
  decide

/-- V-WR-5 and V-WR-7: a setup fires when 0x4F is stored, not for an event that starts at 0x50. -/
theorem test_key_setup_trigger : (storeBytes 0x4F [0x07] State.reset).ready = true ∧
    (storeBytes 0x4F [0x07] State.reset).keyArr = #v[0x07, 0xFF, 0xFF, 0xFF, 0xFF, 0xFF] ∧
    (storeBytes 0x50 [0x01, 0x02] State.reset).ready = false := by decide

/-- V-CIPH-1 to V-CIPH-3 at x = 0 and 7, V-CIPH-5 and V-CIPH-6. -/
theorem test_cipher_vectors : let s := underP2 0x00 []
    decrypt s.fb s.sb 0x00 0x00 = 0xCB ∧ decrypt s.fb s.sb 0xFF 0x07 = 0xEE ∧ encrypt s.fb s.sb 0x00 0x07 = 0xE9 ∧
      encrypt s.fb s.sb 0xAA 0xF0 = 0x21 ∧ decrypt s.fb s.sb 0xAA 0xF0 = 0x35 := by decide

/-- V-CIPH-18: the arrays are reversed. -/
theorem test_reversed_seed_and_key :
    let m := Memory.writeRange 0x40 [0x00, 0x11, 0x22, 0x33, 0x44, 0x55, 0x66, 0x77, 0x88, 0x99, 0xAA, 0xBB, 0xCC,
      0xDD, 0xEE, 0xFF] []
    reversedSeed m = #v[0x99, 0x88, 0x77, 0x66, 0x55, 0x44, 0x33, 0x22, 0x11, 0x00] ∧
      reversedKey m = #v[0xFF, 0xEE, 0xDD, 0xCC, 0xBB, 0xAA] := by decide

/-! ## Reads -/

/-- V-RD-10. -/
theorem test_rd_report_encrypted : let t := nextOf (exec .rdReport (underP2 0x00 [(0xF0, 0xAA)]))
    t.trace = [.response [0x5F, 0xF9, 0xB7, 0x69, 0x8C, 0x30]] ∧ t.lastState = some 0x00 := by decide

/-- P4 line 6: the response, then the hook's replacement. -/
theorem test_rd_report_hook :
    let t := nextOf (exec .rdReport { State.reset with
      active := #v[0xA0, 0x20, 0x40, 0x40, 0x3F, 0xEF]
      streamHookReg := true
      collab := ⟨.given (some #v[0xA0, 0x20, 0x40, 0x40, 0x3F, 0xBF]), false⟩ })
    t.trace = [.response [0xA0, 0x20, 0x40, 0x40, 0x3F, 0xEF], .hookAsked #v[0xA0, 0x20, 0x40, 0x40, 0x3F, 0xEF]] ∧
      t.active = #v[0xA0, 0x20, 0x40, 0x40, 0x3F, 0xBF] := by decide

/-- A state with the hook registered, after seven asks, and a read in progress whose reply is free. -/
def afterSevenAsks : State := { State.reset with streamHookReg := true, collab := Collab.free, draws := 7 }

/-- R225: the eighth ask takes the eighth draw. -/
theorem test_rd_report_free_draw : let t := nextOf (exec .rdReport afterSevenAsks)
    t.active = (Config.hookReply 7).getD afterSevenAsks.active ∧ t.draws = 8 := ⟨rfl, rfl⟩

/-- V-RD-2. -/
theorem test_rd_id : let t := nextOf (exec .rdId (withRf 0xFA exampleId))
    t.trace = [.response [0x00, 0x00, 0xA4, 0x20, 0x01, 0x01]] ∧ t.lastState = some 0xFA ∧ t.blockOffset = 0x00 := by
  decide

/-- P2 line 10. -/
theorem test_rd_id_encrypted : (nextOf (exec .rdId (underP2 0xFA ((0xF0, 0xAA) :: exampleId)))).trace =
    [.response [0x77, 0xA9, 0x6B, 0x13, 0xCA, 0xE8]] := by decide

/-- V-RD-3. -/
theorem test_rd_cal_first_half : let t := nextOf (exec .rdCal (withRf 0x20 exampleCal))
    t.trace = [.response [0x01, 0x02, 0x03, 0x04, 0x05, 0x06, 0x07, 0x08]] ∧ t.lastState = some 0x20 ∧
      t.blockOffset = 0x00 := by decide

/-- V-RD-4. -/
theorem test_rd_cal_second_half :
    let t := nextOf (exec .rdCal { withRf 0x20 exampleCal with lastState := some 0x20 })
    t.trace = [.response [0x09, 0x0A, 0x0B, 0x0C, 0x0D, 0x0E, 0xBE, 0x13]] ∧ t.lastState = none ∧
      t.blockOffset = 0x08 := by decide

/-- V-RD-7, second read: a repeat, wrapped past 0xFF. -/
theorem test_rd_block_wraps :
    let t := nextOf (exec .rdBlock { withRf 0xF8 [(0x00, 0x33), (0x07, 0x44)] with lastState := some 0xF8 })
    t.trace = [.response [0x33, 0xFF, 0xFF, 0xFF, 0xFF, 0xFF, 0xFF, 0x44]] ∧ t.lastState = some 0xF8 ∧
      t.blockOffset = 0x08 := by decide

/-- P2 line 13. -/
theorem test_rd_block_encrypted : (nextOf (exec .rdBlock (underP2 0x10 [(0x10, 0x5A), (0xF0, 0xAA)]))).trace =
    [.response [0x91, 0xDA, 0x74, 0xAA, 0xCC, 0x30, 0xCC, 0xEE]] := by decide

/-! ## Application operations -/

/-- R100's example, and no decryption while the cipher is active. -/
theorem test_rf_get : (nextOf (exec (.rfGet 0x10) State.reset)).trace = [.rfGetResult 0xFF] ∧
    (nextOf (exec (.rfGet 0x10) (underP2 0x10 [(0x10, 0x5A), (0xF0, 0xAA)]))).trace = [.rfGetResult 0x5A] := by decide

/-- R204's example, with the axis beside it. -/
theorem test_set_input : (nextOf (exec (.setInput (.flag .a true)) State.reset)).inp =
      { Input.default with a := true } ∧
    (nextOf (exec (.setInput (.axis .sy 0x12)) State.reset)).inp = { Input.default with sy := 0x12 } := by decide

/-- V-ENC-9. -/
theorem test_encode_a : (nextOf (exec .encode { State.reset with inp := { Input.default with a := true } })).trace =
    [.encodeResult #v[0xA0, 0x20, 0x40, 0x40, 0x3F, 0xEF]] := by decide

/-- V-ENC-5, V-ENC-6, V-ENC-8, V-ENC-13 and V-ENC-15. -/
theorem test_encode_vectors :
    encodeReport ⟨0xFF, 0xFF, 0xFF, 0xFF, 0xFF, true, true, true, true, true, true, true, true, true, true, true, true,
      true, true⟩ = #v[0xFF, 0xFF, 0xFF, 0xFF, 0xC1, 0x00] ∧
    encodeReport { Input.default with r := true } = #v[0xA0, 0x20, 0x40, 0x40, 0xBF, 0xFF] ∧
    encodeReport { Input.default with accessoryReady := true } = #v[0xA0, 0x20, 0x40, 0x40, 0x1F, 0xFF] ∧
    encodeReport { Input.default with sx := 0, sy := 0, accelX := 0, accelY := 0, accelZ := 0x20 } =
      #v[0x00, 0x80, 0x00, 0x00, 0x3F, 0xFF] ∧
    encodeReport { Input.default with sx := 0, sy := 0, accelX := 0, accelY := 0, accelZ := 0x08 } =
      #v[0x00, 0x00, 0x80, 0x00, 0x3F, 0xFF] := by decide

/-- P4 line 9. -/
theorem test_buf_poke : (nextOf (exec (.bufPoke 0 0x80)
    { State.reset with active := #v[0xBF, 0x20, 0x40, 0x40, 0x3F, 0xFF] })).active =
      #v[0x80, 0x20, 0x40, 0x40, 0x3F, 0xFF] := by decide

/-- R220: the index past the buffer. -/
theorem test_buf_poke_refused : let t := nextOf (exec (.bufPoke 6 0x80) State.reset)
    t.active = State.reset.active ∧ t.refused = true ∧ t.trace = [.refusal .pokeIndex] := by decide

/-- P4 line 4. -/
theorem test_buf_swap : let t := nextOf (exec (.bufSwap #v[0xA0, 0x20, 0x40, 0x40, 0x3F, 0xEF]) State.reset)
    t.active = #v[0xA0, 0x20, 0x40, 0x40, 0x3F, 0xEF] ∧
      t.trace = [.swapResult #v[0xA0, 0x20, 0x40, 0x40, 0x3F, 0xFF]] := by decide

theorem test_reg_write_hook : let t := nextOf (exec (.regWriteHook true) State.reset)
    t.writeHookReg = true ∧ t.streamHookReg = false := by decide

theorem test_reg_stream_hook : let t := nextOf (exec (.regStreamHook true) State.reset)
    t.streamHookReg = true ∧ t.writeHookReg = false := by decide

/-- R243: a mark set before STARTUP stays; with none set it is R270's 0. -/
theorem test_startup_keeps_mark :
    (nextOf (exec .startup { State.powerOn with refused := true })).refused = true ∧
      (nextOf (exec .startup State.powerOn)).refused = false := by
  simp only [exec, execStartup, Memory.startup_eq]
  exact ⟨rfl, rfl⟩

/-- R270: the fields beside RF, whatever they were. -/
theorem test_startup : let t := nextOf (exec .startup { State.powerOn with ready := true, state := 0x55 })
    t.started = true ∧ t.ready = false ∧ t.state = 0x00 ∧ t.active = #v[0xA0, 0x20, 0x40, 0x40, 0x3F, 0xFF] := by
  simp only [exec, execStartup, Memory.startup_eq]
  exact ⟨rfl, rfl, rfl, by decide⟩

/-! ## The step -/

/-- V-RD-8's first line as a pending event. -/
theorem test_step_runs_an_event :
    (nextOf (step (State.reset.queueLine (.w 0x01)))).state = 0x01 ∧
      (nextOf (step (State.reset.queueLine (.w 0x01)))).events = [] := by decide

theorem test_step_waits : (nextOf (step State.reset)).trace = [] := by decide

theorem test_fetch_word_runs_the_read : (nextOf (step (State.reset.withFetchWord 8 0x00))).trace =
    [.response [0xA0, 0x20, 0x40, 0x40, 0x3F, 0xFF]] := by decide

/-- R91: SETKEY stores seed and key in address order. -/
theorem test_setkey_expands : Pseudo.expand (.setKey #v[0, 1, 2, 3, 4, 5, 6, 7, 8, 9] #v[10, 11, 12, 13, 14, 15]) =
    [.wData 0x40 [0, 1, 2, 3, 4, 5], .wData 0x46 [6, 7, 8, 9, 10, 11], .wData 0x4C [12, 13, 14, 15]] := by decide

/-! ## Witnesses: a state that meets the hypotheses of each obligation -/

theorem test_witness_DecodeOfEncodeIsIdentity :
    (Instr.rdCal.wellFormed = true ∧ Instr.rdCal.selectable 0x30 = true) ∧
      (Instr.wrData 0xFF [0, 1, 2, 3, 4, 5, 6]).wellFormed = true ∧
      (Instr.wrData 0xFF [0, 1, 2, 3, 4, 5, 6]).selectable 0x00 = true := by decide

theorem test_witness_EncodeOfDecodeIsIdentity : decode 0xFA .read = .ok .rdId := rfl

theorem test_witness_WriteEventIsOneStepByDataCount :
    let s (d : List Byte) : State := { State.reset with events := [.write (0x10 :: d) Collab.silent] }
    (∀ d, (s d).started = true ∧ (s d).events = .write (0x10 :: d) Collab.silent :: [] ∧
      (s d).turns.head? ≠ some .app) ∧
      ([] : List Byte).length = 0 ∧ (List.replicate 7 (0x00 : Byte)).length ≤ 7 ∧
      ¬(List.replicate 8 (0x00 : Byte)).length ≤ 7 :=
  ⟨fun _ => ⟨rfl, rfl, nofun⟩, rfl, by decide, by decide⟩

theorem test_witness_ReadEventIsOneStepByState :
    let s (x : Byte) : State := { State.reset with state := x, events := [.read Collab.silent], turns := [.ev] }
    ∀ x, (s x).started = true ∧ (s x).events = .read Collab.silent :: [] ∧ (s x).turns.head? ≠ some .app ∧
      (s x).state = x :=
  fun _ => ⟨rfl, rfl, nofun, rfl⟩

theorem test_witness_StepRunsTheDecodedOperation :
    let s : State := { State.reset with events := [.write [0x20] Collab.silent] }
    let u : State := { State.reset with events := [.write [] Collab.silent] }
    (fetch s = some (.write [0x20], State.reset) ∧ decode State.reset.state (.write [0x20]) = .ok (.wrAddr 0x20) ∧
        (Instr.wrAddr 0x20).wellFormed = true) ∧
      fetch u = some (.write [], State.reset) ∧ decode State.reset.state (.write []) = .error .emptyWrite :=
  ⟨⟨rfl, rfl, rfl⟩, rfl, rfl⟩

theorem test_witness_FetchTakesTheOldestByTurn :
    let e := Event.read Collab.silent
    let c := Call.mk .encode []
    let s1 : State := { State.reset with events := [e], calls := [c], turns := [.ev] }
    let s2 : State := { State.reset with events := [e], turns := [.app] }
    let s3 : State := { State.reset with events := [e], calls := [c], turns := [.app] }
    let s4 : State := { State.reset with calls := [c], turns := [] }
    (s1.events = e :: [] ∧ s1.turns.head? ≠ some .app) ∧ (s2.events = e :: [] ∧ s2.calls = []) ∧
      (s3.calls = c :: [] ∧ s3.turns.head? = some .app) ∧ (s4.calls = c :: [] ∧ s4.events = []) ∧
      State.reset.events = [] ∧ State.reset.calls = [] :=
  ⟨⟨rfl, nofun⟩, ⟨rfl, rfl⟩, ⟨rfl, rfl⟩, ⟨rfl, rfl⟩, rfl, rfl⟩

/-- For every statement whose one hypothesis is that STARTUP has completed. -/
theorem test_witness_started : State.reset.started = true ∧ (underP2 0x10 [(0xF0, 0xAA)]).started = true := ⟨rfl, rfl⟩

/-- For WrDataStoresEachByte, WrDataFrame and WrDataNotification: the shortest and the longest event, inside each
clause of the first (force-disable, cipher active, cipher inactive). -/
theorem test_witness_WrDataStoresEachByte :
    State.reset.started = true ∧ 1 ≤ [(0x01 : Byte)].length ∧ (List.replicate 7 (0x01 : Byte)).length ≤ 7 ∧
      (0xEF + BitVec.ofNat 8 1 = (0xF0 : Byte) ∧ [(0x00 : Byte), 0x55][1] = 0x55) ∧
      (underP2 0x00 [(0xF0, 0xAA)]).rf.read 0xF0 = 0xAA ∧ (underP2 0x00 [(0xF0, 0xAA)]).ready = true ∧
      State.reset.ready = false := by decide

theorem test_witness_WrDataFrame : State.reset.started = true ∧ 1 ≤ [(0x01 : Byte)].length ∧
    [(0x01 : Byte)].length ≤ 7 ∧ ∀ i, i < [(0x01 : Byte)].length → (0x11 : Byte) ≠ writeCursor 0x10 i := by decide

theorem test_witness_WrDataNotification :
    let s : State := { State.reset with writeHookReg := true, collab := ⟨.given none, true⟩ }
    s.started = true ∧ 1 ≤ [(0x01 : Byte)].length ∧ [(0x01 : Byte)].length ≤ 7 ∧ s.writeHookReg = true ∧
      s.collab.callsBack = true := by decide

/-- 0x4F is the first and only, and the last of seven bytes. -/
theorem test_witness_KeySetupFiresWhen4FIsStored : State.reset.started = true ∧ writeCursor 0x4F 0 = 0x4F ∧
    0 < [(0x07 : Byte)].length ∧ writeCursor 0x49 6 = 0x4F ∧ 6 < (List.replicate 7 (0x07 : Byte)).length := by decide

/-- Starting at 0x50, and ending at 0x4E, with and without a force-disable. -/
theorem test_witness_NoKeySetupWithout4F : State.reset.started = true ∧
    (∀ i, i < [(0x01 : Byte), 0x02].length → writeCursor 0x50 i ≠ 0x4F) ∧
    (∀ i, i < [(0x01 : Byte), 0x02].length → writeCursor 0x4D i ≠ 0x4F) ∧
    (∀ i, i < [(0x55 : Byte)].length → writeCursor 0xF0 i ≠ 0x4F) ∧ underP5.ready = true := by decide

/-- The force-disable as the only byte, and between two others. -/
theorem test_witness_ForceDisableStoresRaw : underP5.started = true ∧ writeCursor 0xF0 0 = 0xF0 ∧
    [(0x55 : Byte)][0] = 0x55 ∧ writeCursor 0xEF 1 = 0xF0 ∧ [(0x00 : Byte), 0x55, 0x77][1] = 0x55 ∧
    [(0x00 : Byte), 0x55, 0x77].length ≤ 7 := by decide

theorem test_witness_EncryptIsSubtractThenXor :
    let s := underP2 0x00 [(0xF0, 0xAA)]
    s.rf.read 0xF0 = 0xAA ∧ s.ready = true ∧ s.fb[0] = 0x66 ∧ s.sb[0] = 0x65 := by decide

/-- For DecryptIsXorThenAdd: the example's entries. -/
theorem test_witness_DecryptIsXorThenAdd : (underP2 0x00 []).fb[0] = 0x66 ∧ (underP2 0x00 []).sb[0] = 0x65 := by decide

/-- Inactive by the control cell alone, and by `ready` alone. -/
theorem test_witness_InactiveCipherPassesThrough :
    ((underP2 0x00 []).rf.read 0xF0 ≠ 0xAA ∧ (underP2 0x00 []).ready = true) ∧
      (withRf 0x00 [(0xF0, 0xAA)]).ready = false ∧ (withRf 0x00 [(0xF0, 0xAA)]).started = true := by decide

theorem test_witness_WireByteReadsBackUnderCipher :
    let s := underP2 0x00 [(0xF0, 0xAA)]
    s.started = true ∧ cipherActive s = true ∧ selectRead 0x10 = .rdBlock ∧ (0x10 : Byte) ≠ 0xF0 ∧
      (0x10 : Byte) ≠ 0x4F ∧ s.lastState ≠ some 0x10 := by decide

/-- For RdReportResult and BufSwapExchanges: the report is selected. -/
theorem test_witness_RdReportResult : State.reset.started = true ∧ State.reset.state = 0x00 := by decide

/-- The hook registered with each reply, and not registered. -/
theorem test_witness_StreamingHookAskedAfterResponse :
    let s (r : Option Buf6) : State := { State.reset with streamHookReg := true, collab := ⟨.given r, false⟩ }
    let b : Buf6 := Vector.replicate 6 0x11
    ((s (some b)).started = true ∧ (s (some b)).state = 0x00 ∧ (s (some b)).streamHookReg = true ∧
        (s (some b)).hookAnswer = some b) ∧
      (s none).hookAnswer = none ∧ State.reset.streamHookReg = false := by decide

theorem test_witness_StreamReplacementServedByNextRead :
    let b : Buf6 := Vector.replicate 6 0x11
    let s : State := { State.reset with streamHookReg := true, collab := ⟨.given (some b), false⟩ }
    s.started = true ∧ s.state = 0x00 ∧ s.streamHookReg = true ∧ s.hookAnswer = some b := by decide

/-- A free reply, a fixed one, a step that asks, and two blocks that differ under one collaborator. -/
theorem test_witness_EveryAskTakesItsOwnDraw :
    (afterSevenAsks.started = true ∧ afterSevenAsks.state = 0x00 ∧ afterSevenAsks.streamHookReg = true ∧
        afterSevenAsks.collab.reply = .draw) ∧
      ({ afterSevenAsks with collab := Collab.silent } : State).collab.reply = .given none ∧
      (∃ t, step { afterSevenAsks with events := [.read Collab.free] } = .next t ∧ t.draws = 8) ∧
      ({ afterSevenAsks with state := 0x20 } : State).collab = afterSevenAsks.collab ∧
      ({ afterSevenAsks with state := 0x20 } : State).draws = afterSevenAsks.draws :=
  ⟨⟨rfl, rfl, rfl, rfl⟩, rfl, ⟨_, rfl, rfl⟩, rfl, rfl⟩

theorem test_witness_RdIdResult : (withRf 0xFA []).started = true ∧ (withRf 0xFA []).state = 0xFA := by decide

/-- Both registers, and both sides of the repeat test; for CalibrationReadsAlternate the first. -/
theorem test_witness_RdCalResult : (withRf 0x20 []).started = true ∧ (withRf 0x20 []).state = 0x20 ∧
    (withRf 0x20 []).lastState ≠ some 0x20 ∧ (withRf 0x30 []).state = 0x30 ∧
    ({ withRf 0x30 [] with lastState := some 0x30 } : State).lastState = some 0x30 := by decide

theorem test_witness_CalibrationReadsAlternate : (withRf 0x20 []).started = true ∧
    ((withRf 0x20 []).state = 0x20 ∨ (withRf 0x20 []).state = 0x30) ∧
    (withRf 0x20 []).lastState ≠ some (withRf 0x20 []).state := by decide

theorem test_witness_RdBlockResult :
    let s := withRf 0x01 []
    s.started = true ∧ s.state ≠ 0x00 ∧ s.state ≠ 0xFA ∧ s.state ≠ 0x20 ∧ s.state ≠ 0x30 ∧
      s.lastState ≠ some s.state ∧ ({ s with lastState := some 0x01 } : State).lastState = some 0x01 := by decide

theorem test_witness_BlockReadsStepThroughRf : (withRf 0xFF []).started = true ∧
    selectRead (withRf 0xFF []).state = .rdBlock ∧ (withRf 0xFF []).lastState ≠ some (withRf 0xFF []).state := by decide

theorem test_witness_SliceReadsWrap : 7 < 8 ∧ ((0xFE : Byte).toNat + 7) % 256 = 5 := by decide

theorem test_witness_ResponseLengths : State.reset.started = true ∧ State.reset.state = 0x00 ∧
    ¬((withRf 0x20 []).state = 0x00 ∨ (withRf 0x20 []).state = 0xFA) := by decide

/-- The first address past the range. -/
theorem test_witness_RfGetReturnsStoredByte : State.reset.started = true ∧ 0xFF < 256 := by decide

/-- The longest run at 0xFA that fits, and one byte more; the cells at the run's ends and outside. -/
theorem test_witness_SetRangeWritesOrRefuses :
    1 ≤ (List.replicate 6 (0x01 : Byte)).length ∧ (0xFA : Byte).toNat + (List.replicate 6 (0x01 : Byte)).length ≤ 256 ∧
      256 < (0xFA : Byte).toNat + (List.replicate 7 (0x01 : Byte)).length ∧
      ((0xFA : Byte).toNat ≤ (0xFF : Byte).toNat ∧ (0xFF : Byte).toNat - (0xFA : Byte).toNat < 6) ∧
      ¬(0xFA : Byte).toNat ≤ (0xF9 : Byte).toNat := by decide

/-- For CalBlockChecksums and NothingRunsBeforeStartup. -/
theorem test_witness_CalBlockChecksums : State.powerOn.started = false := rfl

theorem test_witness_SetInputWritesOneField : State.reset.started = true ∧
    InputWrite.axis .sx 0x01 = .axis .sx 0x01 ∧ InputWrite.flag .up true = .flag .up true := by decide

/-- Inputs that differ in every dropped bit and in no other. -/
theorem test_witness_GoldenReportAndDroppedBits :
    (0x83 : Byte) >>> 2 = Input.default.sx >>> 2 ∧ (0x83 : Byte) >>> 2 = Input.default.sy >>> 2 ∧
      (0x81 : Byte) >>> 1 = Input.default.accelX >>> 1 ∧ (0x81 : Byte) >>> 1 = Input.default.accelY >>> 1 ∧
      (0x81 : Byte) >>> 1 = Input.default.accelZ >>> 1 := by decide

/-- The last index and the first past it. -/
theorem test_witness_BufPokeWritesOneByte : State.reset.started = true ∧ 5 < 6 ∧ 5 < (6 : Nat) := by decide

/-- A block before STARTUP with a cell listed. -/
theorem test_witness_StartupGivesReset :
    ({ State.powerOn with rf := [(0x10, 0x33)] } : State).started = false ∧ Memory.wf [(0x10, 0x33)] := by
  refine ⟨rfl, by simp, ?_⟩
  intro c hc
  rw [List.mem_singleton.mp hc]
  exact ⟨by decide, by decide⟩

theorem test_witness_ResetRegisterFile : (0x1F : Byte).toNat < 0x20 ∧
    (0x40 ≤ (0x40 : Byte).toNat ∧ (0x40 : Byte).toNat < 0xFA) ∧ (0xF9 : Byte).toNat < 0xFA := by decide

/-- A well-formed event, and two frames with another refusal: an over-long write, a call with bad arguments. -/
theorem test_witness_NothingRunsBeforeStartup : State.powerOn.started = false ∧
    decode State.powerOn.state (.write [0x20]) ≠ .ok .startup ∧
    decode State.powerOn.state (.write [0x10, 0, 1, 2, 3, 4, 5, 6, 7]) ≠ .ok .startup ∧
    decode State.powerOn.state (.call .startup [0]) ≠ .ok .startup := ⟨rfl, nofun, nofun, nofun⟩

theorem test_witness_OutsideTheContractIsRefused : State.reset.started = true ∧
    8 ≤ (List.replicate 8 (0x00 : Byte)).length ∧ 5 < 6 ∧ 0xFF < 256 := by decide

/-- A state with the invariant, right after a key setup, with a read pending. -/
def readyState : State := { State.reset.keySetup with events := [.read Collab.silent] }

theorem test_witness_StepKeepsInvariant : readyState.Inv ∧ ∃ t, step readyState = .next t :=
  ⟨⟨Memory.wf_nil, by decide, fun _ => .inl rfl, nofun, fun _ => rfl⟩, _, rfl⟩

/-- Two states that differ in an idle table, and one that is not idle. -/
theorem test_witness_IdleScheduleIsUnobservable :
    SameButIdleSchedule State.reset { State.reset with fb := Vector.replicate 8 0x11 } ∧
      SameButIdleSchedule readyState readyState :=
  ⟨⟨rfl, nofun⟩, rfl, fun _ => rfl⟩

theorem test_witness_EventsIgnoreTheInput : (Instr.wrAddr 0x20).agent = .ev ∧ (Instr.wrData 0x4F [0x07]).agent = .ev ∧
    Instr.rdReport.agent = .ev ∧ Instr.rdId.agent = .ev ∧ Instr.rdCal.agent = .ev ∧ Instr.rdBlock.agent = .ev := by
  decide

/-- An application operation, a read and a write, each with its next state. -/
theorem test_witness_ContextsWriteOnlyTheirState : State.reset.started = true ∧
    ((Instr.bufPoke 0 0x80).agent = .app ∧ ∃ t, exec (.bufPoke 0 0x80) State.reset = .next t) ∧
    (Instr.rdReport.isRead = true ∧ ∃ t, exec .rdReport State.reset = .next t) ∧
    (Instr.wrAddr 0x20).agent = .ev ∧ (Instr.wrAddr 0x20).isRead = false ∧
    ∃ t, exec (.wrAddr 0x20) State.reset = .next t :=
  ⟨rfl, ⟨rfl, _, rfl⟩, ⟨rfl, _, rfl⟩, rfl, rfl, _, rfl⟩

/-- `ready` set by a key setup, and cleared by a force-disable. -/
theorem test_witness_ReadyChangesOnlyByHandshake :
    (State.reset.ready = false ∧ ∃ t, exec (.wrData 0x4F [0x07]) State.reset = .next t ∧ t.ready = true) ∧
      underP5.ready = true ∧ ∃ t, exec (.wrData 0xF0 [0x55]) underP5 = .next t ∧ t.ready = false :=
  ⟨⟨rfl, _, rfl, rfl⟩, rfl, _, rfl, rfl⟩

/-- A step that answers a response, for OutputsAreNeverRetracted. -/
theorem test_witness_OutputsAreNeverRetracted : ∃ t, step readyState = .next t := ⟨_, rfl⟩

/-- A step that is refused after STARTUP, with the mark set before it and not; and STARTUP itself with the mark set. -/
theorem test_witness_RefusalMarkIsNeverCleared :
    let s : State := { State.reset with events := [.write [] Collab.silent] }
    let u : State := { State.powerOn with refused := true, calls := [⟨.startup, []⟩] }
    (s.started = true ∧ ∃ t, step s = .next t ∧ Output.refusal .emptyWrite ∈ outputsSince s t) ∧
      (∃ t, step { s with refused := true } = .next t) ∧ u.refused = true ∧ ∃ t, step u = .next t := by
  obtain ⟨_, _, h⟩ := exec_startup_before
    (s := { State.powerOn with refused := true }) rfl
  exact ⟨⟨rfl, _, rfl, by decide⟩, ⟨_, rfl⟩, rfl, _, h⟩

end Sys2Proof.Tests
end

/-! ## Scope: how a step runs (R10, R69, R251), and the wrap of a slice (R9, R63) -/

namespace Sys2Proof.Machine

/-- A frame that decodes is run as the operation it stands for (R69, R251). -/
theorem perform_of_decode_ok {f : Frame} {t : State} {i : Instr} (h : decode t.state f = .ok i) :
    perform f t = exec i t := by
  simp [perform, h]

/-- A frame that the decoder rejects is refused by the decoder's name for it (R243). -/
theorem perform_of_decode_error {f : Frame} {t : State} {r : RefuseReason} (h : decode t.state f = .error r) :
    perform f t = refuseWith r t := by
  simp [perform, h]

/-- With something pending, a step performs the frame that is taken. -/
theorem step_of_fetch_some {s t : State} {f : Frame} (h : fetch s = some (f, t)) : step s = perform f t := by
  simp [step, h]

/-- Settles O7: the step performs the fetched frame, by the outcome of its decoding. -/
theorem stepRunsTheDecodedOperation : Obligations.StepRunsTheDecodedOperation := by
  intro s t f hf
  have hstep : step s = perform f t := step_of_fetch_some hf
  exact ⟨fun i hi _ => hstep.trans (perform_of_decode_ok hi), fun r hr => hstep.trans (perform_of_decode_error hr)⟩

/-- The address `i` cells above `a`, as byte addition and as the sum reduced mod 256 (R63). -/
theorem byte_add_ofNat_eq_mod (a : Byte) (i : Nat) : a + BitVec.ofNat 8 i = BitVec.ofNat 8 ((a.toNat + i) % 256) := by
  apply BitVec.eq_of_toNat_eq
  simp

/-- Element `i` of a slice is the cell `i` above its start, in byte arithmetic (R9). -/
theorem Memory.getElem?_readRange (m : Memory) {n i : Nat} (a : Byte) (h : i < n) :
    (m.readRange a n)[i]? = some (m.read (a + BitVec.ofNat 8 i)) := by
  induction n generalizing a i with
  | zero => exact absurd h (Nat.not_lt_zero i)
  | succ n ih =>
    cases i with
    | zero => simp [Memory.readRange]
    | succ i =>
      have hnext : a + 1 + BitVec.ofNat 8 i = a + BitVec.ofNat 8 (i + 1) := by bv_omega
      calc (m.readRange a (n + 1))[i + 1]?
          = (m.readRange (a + 1) n)[i]? := by simp [Memory.readRange]
        _ = some (m.read (a + 1 + BitVec.ofNat 8 i)) := ih (a + 1) (Nat.lt_of_succ_lt_succ h)
        _ = some (m.read (a + BitVec.ofNat 8 (i + 1))) := by rw [hnext]

/-- Settles O29: a slice's elements in byte arithmetic, whose addition is the sum mod 256. -/
theorem sliceReadsWrap : Obligations.SliceReadsWrap := by
  intro m a n i hi
  rw [Memory.getElem?_readRange m a hi, byte_add_ofNat_eq_mod]

end Sys2Proof.Machine

/-! ## State: what a data write stores, and what it does to `ready` and the key schedule (R34, R126, R128, R143) -/

namespace Sys2Proof.Machine

theorem writeCursor_zero (a : Byte) : writeCursor a 0 = a := by simp [writeCursor]

theorem writeCursor_succ (a : Byte) (i : Nat) : writeCursor a (i + 1) = writeCursor (a + 1) i := by
  unfold writeCursor
  bv_omega

/-- Some data byte of an event at `a` satisfies `p`, which is given its write cursor and its raw value (R142). -/
def SomeByte (p : Byte → Byte → Prop) (a : Byte) (d : List Byte) : Prop :=
  ∃ i, ∃ h : i < d.length, p (writeCursor a i) d[i]

theorem not_someByte_nil (p : Byte → Byte → Prop) (a : Byte) : ¬ SomeByte p a [] :=
  fun ⟨i, h, _⟩ => Nat.not_lt_zero i h

/-- The first byte is stored at the start address, the rest from the next address on. -/
theorem someByte_cons {p : Byte → Byte → Prop} {a raw : Byte} {rest : List Byte} :
    SomeByte p a (raw :: rest) ↔ p a raw ∨ SomeByte p (a + 1) rest := by
  constructor
  · rintro ⟨_ | i, hi, hp⟩
    · exact .inl (by simpa [writeCursor_zero] using hp)
    · exact .inr ⟨i, by simpa using hi, by simpa [writeCursor_succ] using hp⟩
  · rintro (hp | ⟨i, hi, hp⟩)
    · exact ⟨0, by simp, by simpa [writeCursor_zero] using hp⟩
    · exact ⟨i + 1, by simpa using hi, by simpa [writeCursor_succ] using hp⟩

/-- The byte is stored at `x`. -/
def StoredAt (x cur _raw : Byte) : Prop := cur = x

/-- The byte is a raw 0x55 at 0xF0 (R128). -/
def ForcesDisable (cur raw : Byte) : Prop := cur = cipherControl ∧ raw = cipherDisable

/-- `ready` survives the force-disable test unless the raw byte is 0x55 at 0xF0 (R128). -/
theorem readyAfterTest_iff {cur raw : Byte} {ready : Bool} :
    readyAfterTest cur raw ready = true ↔ ready = true ∧ ¬ ForcesDisable cur raw := by
  simp only [readyAfterTest, isForceDisable, ForcesDisable, Bool.and_eq_true, Bool.not_eq_true',
    Bool.and_eq_false_iff, decide_eq_false_iff_not, not_and_or]

/-- The byte stored at 0x4F sets up the schedule from the cells as they then stand (R126, R134). -/
theorem storeByte_at_4F (raw : Byte) (s : State) :
    storeByte 0x4F raw s =
      ((s.forceDisable 0x4F raw).writeCell 0x4F (storedValue (s.forceDisable 0x4F raw) 0x4F raw)).keySetup := rfl

/-- Any other byte is stored after its force-disable test and does no more (R144, R145). -/
theorem storeByte_of_ne {cur : Byte} (h : cur ≠ 0x4F) (raw : Byte) (s : State) :
    storeByte cur raw s = (s.forceDisable cur raw).writeCell cur (storedValue (s.forceDisable cur raw) cur raw) :=
  if_neg fun e => h (by unfold keySetupCursor at e; bv_omega)

/-- The bytes leave every cell outside their own addresses alone (R143). -/
theorem storeBytes_read_of_not_stored {x cur : Byte} {d : List Byte} (h : ¬ SomeByte (StoredAt x) cur d) (s : State) :
    (storeBytes cur d s).rf.read x = s.rf.read x := by
  induction d generalizing cur s with
  | nil => rfl
  | cons raw rest ih =>
    obtain ⟨hx, hrest⟩ := not_or.mp (mt someByte_cons.mpr h)
    calc (storeBytes cur (raw :: rest) s).rf.read x
        = (storeByte cur raw s).rf.read x := ih hrest _
      _ = s.rf.read x := by rw [storeByte_rf]; exact Memory.read_write_ne _ (Ne.symm hx) _

/-- Bytes that miss 0x4F leave the tables and the arrays alone (R145). -/
theorem storeBytes_schedule_of_not_4F {cur : Byte} {d : List Byte} (h : ¬ SomeByte (StoredAt 0x4F) cur d) (s : State) :
    (storeBytes cur d s).fb = s.fb ∧ (storeBytes cur d s).sb = s.sb ∧
      (storeBytes cur d s).seedArr = s.seedArr ∧ (storeBytes cur d s).keyArr = s.keyArr := by
  induction d generalizing cur s with
  | nil => exact ⟨rfl, rfl, rfl, rfl⟩
  | cons raw rest ih =>
    obtain ⟨hcur, hrest⟩ := not_or.mp (mt someByte_cons.mpr h)
    have htail := ih hrest (storeByte cur raw s)
    rw [storeByte_of_ne hcur] at htail
    rw [storeBytes, storeByte_of_ne hcur]
    exact htail

/-- Bytes that miss 0x4F can only clear `ready`, and do so exactly by a force-disable (R34, R128). -/
theorem storeBytes_ready_of_not_4F {cur : Byte} {d : List Byte} (h : ¬ SomeByte (StoredAt 0x4F) cur d) (s : State) :
    (storeBytes cur d s).ready = true ↔ s.ready = true ∧ ¬ SomeByte ForcesDisable cur d := by
  induction d generalizing cur s with
  | nil => simp [storeBytes, not_someByte_nil]
  | cons raw rest ih =>
    obtain ⟨hcur, hrest⟩ := not_or.mp (mt someByte_cons.mpr h)
    have hready : (storeByte cur raw s).ready = true ↔ s.ready = true ∧ ¬ ForcesDisable cur raw := by
      rw [storeByte_of_ne hcur]
      exact readyAfterTest_iff
    rw [storeBytes, ih hrest, hready, someByte_cons, not_or, and_assoc]

/-- Wherever the bytes are stored, only a force-disable among them can take `ready` from 1 to 0 (R34, R128). -/
theorem someByte_forcesDisable_of_ready_cleared {cur : Byte} {d : List Byte} {s : State} (hs : s.ready = true)
    (h : (storeBytes cur d s).ready = false) : SomeByte ForcesDisable cur d := by
  induction d generalizing cur s with
  | nil => exact absurd (h.symm.trans hs) Bool.false_ne_true
  | cons raw rest ih =>
    rw [someByte_cons]
    cases hb : (storeByte cur raw s).ready
    · refine .inl (by_contra fun hno => ?_)
      have hkept : (storeByte cur raw s).ready = true := by
        by_cases hcur : cur = 0x4F
        · rw [hcur, storeByte_at_4F]; rfl
        · rw [storeByte_of_ne hcur]
          exact readyAfterTest_iff.mpr ⟨hs, hno⟩
      exact Bool.false_ne_true (hb.symm.trans hkept)
    · exact .inr (ih hb h)

/-- A WR_DATA of 1 to 7 bytes after STARTUP has its effect (R143). -/
theorem exec_wrData {s : State} (hs : s.started = true) (a : Byte) {d : List Byte} (h1 : 1 ≤ d.length)
    (h7 : d.length ≤ 7) : exec (.wrData a d) s = .next ((storeBytes a d s).notifyWrite a d.length) := by
  show execWrData a d s = _
  rw [execWrData, if_neg (by omega), if_neg (by omega), whenStarted_started hs]

/-- The fields that WR_DATA and its notification can change (R39, R143, R146). -/
theorem wrData_effect_eq {a : Byte} {d : List Byte} {n : Nat} {s t : State} (h : t = (storeBytes a d s).notifyWrite a n) :
    t = { s with rf := t.rf, ready := t.ready, fb := t.fb, sb := t.sb, seedArr := t.seedArr, keyArr := t.keyArr,
                 refused := t.refused, trace := t.trace } := by
  rw [h, notifyWrite_eq]
  simp

/-- Settles O12: the stored cells by induction over the data bytes, the other fields by the frame of WR_DATA's effect. -/
theorem wrDataFrame : Obligations.WrDataFrame := by
  intro a d s hs h1 h7
  refine ⟨_, exec_wrData hs a h1 h7, fun x hx => ?_, wrData_effect_eq rfl⟩
  rw [notifyWrite_eq]
  exact storeBytes_read_of_not_stored (fun ⟨i, hi, e⟩ => hx i hi e.symm) s

/-- Settles O15: no byte at 0x4F means no key setup, so the schedule stays and `ready` changes by force-disable only. -/
theorem noKeySetupWithout4F : Obligations.NoKeySetupWithout4F := by
  intro a d s hs h1 h7 hno
  have hmiss : ¬ SomeByte (StoredAt 0x4F) a d := fun ⟨i, hi, e⟩ => hno i hi e
  obtain ⟨hfb, hsb, hseed, hkey⟩ := storeBytes_schedule_of_not_4F hmiss s
  refine ⟨_, exec_wrData hs a h1 h7, ?_⟩
  rw [notifyWrite_eq]
  exact ⟨hfb, hsb, hseed, hkey, storeBytes_ready_of_not_4F hmiss s⟩

/-- What an application operation after STARTUP can change (R39, R66, R100, R204, R220-R227). -/
theorem appEffect_eq {i : Instr} {s t : State} (hi : i.agent = .app) (hs : s.started = true) (h : HasEffect i s t) :
    t = { s with active := t.active, inp := t.inp, writeHookReg := t.writeHookReg, streamHookReg := t.streamHookReg,
                 refused := t.refused, trace := t.trace } := by
  cases i with
  | wrAddr _ | wrData _ _ | rdReport | rdId | rdCal | rdBlock => exact nomatch hi
  | rfGet _ | setInput _ | encode | bufSwap _ | regWriteHook _ | regStreamHook _ => obtain ⟨-, rfl⟩ := h; rfl
  | bufPoke _ _ => obtain ⟨-, -, rfl⟩ := h; rfl
  | startup => exact absurd (h.1.symm.trans hs) Bool.false_ne_true

/-- What a read event can change: its read cursor, and through the streaming hook `active` and the draws
(R39, R171-R178). -/
theorem readEffect_eq {i : Instr} {s t : State} (hi : i.isRead = true) (h : HasEffect i s t) :
    t = { s with lastState := t.lastState, blockOffset := t.blockOffset, active := t.active, draws := t.draws,
                 refused := t.refused, trace := t.trace } := by
  cases i with
  | rdReport => obtain ⟨-, -, rfl⟩ := h; rw [askStreamHook_eq]; rfl
  | rdId | rdCal | rdBlock => obtain ⟨-, -, rfl⟩ := h; rfl
  | _ => exact nomatch hi

/-- What a write event can change: `state`, or the stored cells and the key schedule (R39, R141, R143). -/
theorem writeEffect_eq {i : Instr} {s t : State} (hi : i.agent = .ev) (hr : i.isRead = false) (h : HasEffect i s t) :
    t = { s with rf := t.rf, state := t.state, ready := t.ready, fb := t.fb, sb := t.sb, seedArr := t.seedArr,
                 keyArr := t.keyArr, refused := t.refused, trace := t.trace } := by
  cases i with
  | wrAddr _ => obtain ⟨-, rfl⟩ := h; rfl
  | wrData _ _ => obtain ⟨-, -, -, rfl⟩ := h; rw [notifyWrite_eq]; simp
  | rdReport | rdId | rdCal | rdBlock => exact nomatch hr
  | _ => exact nomatch hi

/-- Settles O50: each context's effects have its frame, and a refusal adds the mark and the trace only. -/
theorem contextsWriteOnlyTheirState : Obligations.ContextsWriteOnlyTheirState := by
  intro i s t hs h
  rcases exec_cases h with heff | ⟨r, rfl⟩
  · exact ⟨fun hi => appEffect_eq hi hs heff, fun hi => readEffect_eq hi heff, fun hi hr => writeEffect_eq hi hr heff⟩
  · exact ⟨fun _ => rfl, fun _ => rfl, fun _ _ => rfl⟩

/-- Which operations can change `ready`, and how: STARTUP clears it, and WR_DATA leaves what its bytes make of it
(R34). -/
theorem exec_ready_cases {i : Instr} {s t : State} (h : exec i s = .next t) :
    t.ready = s.ready ∨ (i = .startup ∧ t.ready = false) ∨
      ∃ a d, i = .wrData a d ∧ t.ready = (storeBytes a d s).ready := by
  rcases exec_cases h with heff | ⟨r, rfl⟩
  case inr => exact .inl rfl
  cases i with
  | startup => obtain ⟨-, m, -, rfl⟩ := heff; exact .inr (.inl ⟨rfl, rfl⟩)
  | wrData a d =>
    obtain ⟨-, -, -, rfl⟩ := heff
    exact .inr (.inr ⟨a, d, rfl, by rw [notifyWrite_eq]⟩)
  | wrAddr _ => obtain ⟨-, rfl⟩ := heff; exact .inl rfl
  | rdReport | rdId | rdCal | rdBlock => exact .inl (congrArg State.ready (readEffect_eq rfl heff) :)
  | _ => exact .inl (congrArg State.ready (appEffect_eq rfl heff.1 heff) :)

/-- Settles O51: only WR_DATA can set `ready`, by a byte at 0x4F, and only it (by a force-disable) or STARTUP can
clear it. -/
theorem readyChangesOnlyByHandshake : Obligations.ReadyChangesOnlyByHandshake := by
  intro i s t h
  rcases exec_ready_cases h with hsame | ⟨rfl, hclear⟩ | ⟨a, d, rfl, hbytes⟩
  · exact ⟨fun h0 h1 => absurd (h0.symm.trans (hsame.symm.trans h1)) Bool.false_ne_true,
      fun h1 h0 => absurd (h0.symm.trans (hsame.trans h1)) Bool.false_ne_true⟩
  · exact ⟨fun _ h1 => absurd (hclear.symm.trans h1) Bool.false_ne_true, fun _ _ => .inl rfl⟩
  · refine ⟨fun h0 h1 => by_contra fun hno => ?_, fun h1 h0 => ?_⟩
    · have hmiss : ¬ SomeByte (StoredAt 0x4F) a d := fun ⟨k, hk, e⟩ => hno ⟨a, d, k, rfl, hk, e⟩
      have hready := (storeBytes_ready_of_not_4F hmiss s).mp (hbytes.symm.trans h1)
      exact Bool.false_ne_true (h0.symm.trans hready.1)
    · obtain ⟨k, hk, hcur, hraw⟩ := someByte_forcesDisable_of_ready_cleared h1 (hbytes.symm.trans h0)
      exact .inr ⟨a, d, k, rfl, hk, hcur, hraw⟩

end Sys2Proof.Machine

/-! ## State: the invariant of every step (R32, R75, R126, R175-R177) -/

namespace Sys2Proof.Machine

/-- A legal read cursor, `lastState` and `blockOffset`: the part of the invariant that speaks of them (R32, R175, R176). -/
def CursorOk (c : Option Byte × Byte) : Prop :=
  c.2.toNat % 8 = 0 ∧ (c.1 = none → c.2 = 0x00 ∨ c.2 = 0x08) ∧
    ∀ r, c.1 = some r → selectRead r ≠ .rdBlock → c.2 = 0x00

/-- The tables are the generator's for the stored arrays while `ready` (R75, R126). -/
def State.ScheduleValid (s : State) : Prop := s.ready = true → (s.fb, s.sb) = Config.keySchedule s.seedArr s.keyArr

/-- The invariant by its three parts. -/
theorem State.inv_iff {s : State} : s.Inv ↔ s.rf.wf ∧ CursorOk (s.lastState, s.blockOffset) ∧ s.ScheduleValid := by
  simp only [State.Inv, CursorOk, State.ScheduleValid, and_assoc]

/-- The cursor of a first read of any register (R172, R174, R176, R177). -/
theorem cursorOk_first (r : Option Byte) : CursorOk (r, 0x00) := ⟨rfl, fun _ => .inl rfl, fun _ _ _ => rfl⟩

/-- RD_CAL's cursor: the repeat marker with offset 8, or a first half (R176). -/
theorem cursorOk_calCursor (st : Byte) (last : Option Byte) : CursorOk (calCursor st last) := by
  unfold calCursor
  split
  · exact ⟨rfl, fun _ => .inr rfl, nofun⟩
  · exact cursorOk_first _

/-- RD_BLOCK's cursor: the next slice is 8 on, and its register selects RD_BLOCK (R177). -/
theorem cursorOk_blockCursor {st off : Byte} (hst : selectRead st = .rdBlock) (hoff : off.toNat % 8 = 0)
    (last : Option Byte) : CursorOk (blockCursor st last off) := by
  unfold blockCursor
  split
  · refine ⟨?_, nofun, fun r hr hne => absurd (Option.some.inj hr ▸ hst) hne⟩
    show (off + 0x08).toNat % 8 = 0
    bv_omega
  · exact cursorOk_first _

/-- Moving the read cursor to a legal one keeps the invariant. -/
theorem State.Inv.setCursor {s : State} (h : s.Inv) {c : Option Byte × Byte} (hc : CursorOk c) : (s.setCursor c).Inv := by
  obtain ⟨hrf, -, hsched⟩ := State.inv_iff.mp h
  exact State.inv_iff.mpr ⟨hrf, hc, hsched⟩

/-- A data byte keeps the schedule valid: a key setup makes it so, and nothing else writes it (R126, R144). -/
theorem State.ScheduleValid.storeByte {s : State} (h : s.ScheduleValid) (cur raw : Byte) :
    (storeByte cur raw s).ScheduleValid := by
  by_cases hcur : cur = 0x4F
  · rw [hcur, storeByte_at_4F]
    exact fun _ => rfl
  · rw [storeByte_of_ne hcur]
    exact fun hready => h (readyAfterTest_iff.mp hready).1

theorem State.ScheduleValid.storeBytes {s : State} (h : s.ScheduleValid) (cur : Byte) (d : List Byte) :
    (storeBytes cur d s).ScheduleValid := by
  induction d generalizing cur s with
  | nil => exact h
  | cons raw rest ih => exact ih (h.storeByte cur raw) (cur + 1)

/-- The data bytes keep the invariant. -/
theorem State.Inv.storeBytes {s : State} (h : s.Inv) (cur : Byte) (d : List Byte) : (storeBytes cur d s).Inv := by
  obtain ⟨hrf, hcursor, hsched⟩ := State.inv_iff.mp h
  exact State.inv_iff.mpr ⟨wf_storeBytes hrf cur d, by simpa using hcursor, hsched.storeBytes cur d⟩

/-- The write notification keeps the invariant, which speaks of no field that it changes. -/
theorem State.Inv.notifyWrite {s : State} (h : s.Inv) (a : Byte) (n : Nat) : (s.notifyWrite a n).Inv := by
  rw [notifyWrite_eq]
  exact h

/-- The streaming hook keeps the invariant, which speaks of no field that it changes. -/
theorem State.Inv.askStreamHook {s : State} (h : s.Inv) (sent : Buf6) : (s.askStreamHook sent).Inv := by
  rw [askStreamHook_eq]
  exact h

/-- A response keeps the invariant: it is an output alone (R171). -/
theorem State.Inv.respond {s : State} (h : s.Inv) (pt : List Byte) (start : Byte) : (s.respond pt start).Inv := h

/-- STARTUP establishes the cursor and the schedule, and keeps RF's canonical form (R41, R270). -/
theorem State.Inv.startupWith {s : State} (h : s.Inv) {m : Memory} (hm : Memory.startup s.rf = .ok m) :
    (s.startupWith m).Inv :=
  State.inv_iff.mpr ⟨Memory.wf_startup h.1 hm, cursorOk_first none, nofun⟩

/-- Every operation's effect keeps the invariant. -/
theorem State.Inv.effect {i : Instr} {s t : State} (hs : s.Inv) (h : HasEffect i s t) : t.Inv := by
  cases i with
  | wrAddr _ | rfGet _ | setInput _ | encode | bufSwap _ | regWriteHook _ | regStreamHook _ =>
    obtain ⟨-, rfl⟩ := h; exact hs
  | bufPoke _ _ => obtain ⟨-, -, rfl⟩ := h; exact hs
  | wrData a d => obtain ⟨-, -, -, rfl⟩ := h; exact (hs.storeBytes a d).notifyWrite a d.length
  | rdReport =>
    obtain ⟨-, -, rfl⟩ := h
    exact ((hs.setCursor (cursorOk_first _)).respond _ _).askStreamHook _
  | rdId => obtain ⟨-, -, rfl⟩ := h; exact (hs.setCursor (cursorOk_first _)).respond _ _
  | rdCal => obtain ⟨-, -, rfl⟩ := h; exact (hs.setCursor (cursorOk_calCursor _ _)).respond _ _
  | rdBlock => obtain ⟨-, hsel, rfl⟩ := h; exact (hs.setCursor (cursorOk_blockCursor hsel hs.2.1 _)).respond _ _
  | startup => obtain ⟨-, m, hm, rfl⟩ := h; exact hs.startupWith hm

/-- A refusal adds the mark and its name, of which the invariant does not speak (R243). -/
theorem State.Inv.refuse {s : State} (h : s.Inv) (r : RefuseReason) : (s.refuse r).Inv := h

/-- Every operation keeps the invariant, refused or not. -/
theorem State.Inv.exec {i : Instr} {s t : State} (hs : s.Inv) (h : exec i s = .next t) : t.Inv := by
  rcases exec_cases h with heff | ⟨r, rfl⟩
  · exact hs.effect heff
  · exact hs.refuse r

/-- Taking the next pending input keeps the invariant. -/
theorem State.Inv.fetch {s u : State} {f : Frame} (hs : s.Inv) (h : fetch s = some (f, u)) : u.Inv := by
  rw [fetch_eq h]
  exact hs

/-- Settles O46: by what a step can do, since taking an input, running an operation and refusing each keep the
invariant. -/
theorem stepKeepsInvariant : Obligations.StepKeepsInvariant := by
  intro s t hs h
  rcases step_cases h with ⟨-, rfl⟩ | ⟨f, u, hf, ⟨i, -, hi⟩ | ⟨r, rfl⟩⟩
  · exact hs
  · exact (hs.fetch hf).exec hi
  · exact (hs.fetch hf).refuse r

/-- Settles O47: at reset RF lists no cell, nothing has been read and `ready` is 0. -/
theorem invariantHoldsAtReset : Obligations.InvariantHoldsAtReset :=
  State.inv_iff.mpr ⟨Memory.wf_nil, cursorOk_first none, nofun⟩

/-! ## State: the refusal mark and the trace (R20, R243, R257) -/

/-- What a step may do to the flags and the trace: `started` and the mark are not cleared, outputs are only added, and
a refusal among them sets the mark. -/
structure KeepsMark (s t : State) : Prop where
  started : s.started = true → t.started = true
  refused : s.refused = true → t.refused = true
  outputs : ∃ out, t.trace = s.trace ++ out ∧ ∀ r, .refusal r ∈ out → t.refused = true

/-- A change of other fields alone. -/
theorem KeepsMark.of_eq {s t : State} (hs : t.started = s.started) (hr : t.refused = s.refused)
    (ht : t.trace = s.trace) : KeepsMark s t :=
  ⟨hs.trans, hr.trans, [], by simpa using ht, nofun⟩

theorem KeepsMark.trans {s t u : State} (h : KeepsMark s t) (h' : KeepsMark t u) : KeepsMark s u := by
  obtain ⟨out, hout, hmark⟩ := h.outputs
  obtain ⟨out', hout', hmark'⟩ := h'.outputs
  refine ⟨h'.started ∘ h.started, h'.refused ∘ h.refused, out ++ out', ?_, fun r hr => ?_⟩
  · rw [hout', hout, List.append_assoc]
  · rcases List.mem_append.mp hr with hr | hr
    · exact h'.refused (hmark r hr)
    · exact hmark' r hr

/-- A refusal sets the mark with its output (R243). -/
theorem keepsMark_refuse (r : RefuseReason) (s : State) : KeepsMark s (s.refuse r) :=
  ⟨id, fun _ => rfl, [.refusal r], rfl, fun _ _ => rfl⟩

/-- An output that is no refusal leaves the mark alone. -/
theorem keepsMark_emit (o : Output) (ho : ∀ r, o ≠ .refusal r) (s : State) : KeepsMark s (s.emit o) :=
  ⟨id, id, [o], rfl, fun r hr => absurd (List.mem_singleton.mp hr).symm (ho r)⟩

/-- A collaborator's call back is a refusal (R243, R252). -/
theorem keepsMark_collaboratorCalled (s : State) : KeepsMark s s.collaboratorCalled := by
  unfold State.collaboratorCalled
  split
  · exact keepsMark_refuse _ s
  · exact .of_eq rfl rfl rfl

theorem keepsMark_notifyWrite (a : Byte) (n : Nat) (s : State) : KeepsMark s (s.notifyWrite a n) := by
  unfold State.notifyWrite
  split
  · exact (keepsMark_emit (.notify a n) nofun s).trans (keepsMark_collaboratorCalled _)
  · exact .of_eq rfl rfl rfl

theorem keepsMark_askStreamHook (sent : Buf6) (s : State) : KeepsMark s (s.askStreamHook sent) := by
  unfold State.askStreamHook
  split
  · exact ((keepsMark_emit (.hookAsked sent) nofun s).trans (keepsMark_collaboratorCalled _)).trans (.of_eq rfl rfl rfl)
  · exact .of_eq rfl rfl rfl

theorem keepsMark_setCursor (c : Option Byte × Byte) (s : State) : KeepsMark s (s.setCursor c) := .of_eq rfl rfl rfl

theorem keepsMark_setActive (b : Buf6) (s : State) : KeepsMark s (s.setActive b) := .of_eq rfl rfl rfl

/-- A response moves the read cursor and adds one output (R171). -/
theorem keepsMark_respond (c : Option Byte × Byte) (pt : List Byte) (start : Byte) (s : State) :
    KeepsMark s ((s.setCursor c).respond pt start) :=
  (keepsMark_setCursor c s).trans (keepsMark_emit (.response (xform (s.setCursor c) pt start)) nofun (s.setCursor c))

/-- Every operation's effect keeps the mark. -/
theorem HasEffect.keepsMark {i : Instr} {s t : State} (h : HasEffect i s t) : KeepsMark s t := by
  cases i with
  | wrAddr _ | setInput _ | regWriteHook _ | regStreamHook _ => obtain ⟨-, rfl⟩ := h; exact .of_eq rfl rfl rfl
  | bufPoke _ _ => obtain ⟨-, -, rfl⟩ := h; exact keepsMark_setActive _ s
  | rfGet _ => obtain ⟨-, rfl⟩ := h; exact keepsMark_emit (.rfGetResult _) nofun s
  | encode => obtain ⟨-, rfl⟩ := h; exact keepsMark_emit (.encodeResult _) nofun s
  | bufSwap b =>
    obtain ⟨-, rfl⟩ := h
    exact (keepsMark_setActive b s).trans (keepsMark_emit (.swapResult s.active) nofun (s.setActive b))
  | wrData a d =>
    obtain ⟨-, -, -, rfl⟩ := h
    exact (KeepsMark.of_eq (by simp) (by simp) (by simp)).trans (keepsMark_notifyWrite a d.length (storeBytes a d s))
  | rdReport => obtain ⟨-, -, rfl⟩ := h; exact (keepsMark_respond _ _ _ s).trans (keepsMark_askStreamHook _ _)
  | rdId | rdCal | rdBlock => obtain ⟨-, -, rfl⟩ := h; exact keepsMark_respond _ _ _ s
  | startup =>
    obtain ⟨-, m, -, rfl⟩ := h
    exact ⟨fun _ => rfl, id, [], (List.append_nil _).symm, nofun⟩

/-- Every step keeps the mark. -/
theorem step_keepsMark {s t : State} (h : step s = .next t) : KeepsMark s t := by
  rcases step_cases h with ⟨-, rfl⟩ | ⟨f, u, hf, hrun⟩
  · exact .of_eq rfl rfl rfl
  · have htaken : KeepsMark s u := by rw [fetch_eq hf]; exact .of_eq rfl rfl rfl
    refine htaken.trans ?_
    rcases hrun with ⟨i, -, hi⟩ | ⟨r, rfl⟩
    · rcases exec_cases hi with heff | ⟨r, rfl⟩
      · exact heff.keepsMark
      · exact keepsMark_refuse r u
    · exact keepsMark_refuse r u

/-- Settles O53: every step keeps the mark, and the outputs since it are the ones it added. -/
theorem refusalMarkIsNeverCleared : Obligations.RefusalMarkIsNeverCleared := by
  intro s t h
  obtain ⟨hstarted, hrefused, out, hout, hmark⟩ := step_keepsMark h
  have hsince : outputsSince s t = out := by rw [outputsSince, hout, List.drop_left]
  exact ⟨hstarted, hrefused, fun r hr => hmark r (hsince ▸ hr)⟩

end Sys2Proof.Machine

/-! ## State: the register file after STARTUP (R29, R41, R270) -/

namespace Sys2Proof.Machine

/-- The cells of the fill that no later write of STARTUP reaches (R41). -/
theorem resetByte_fill {n : Nat} (h : n < 0x20 ∨ 0x40 ≤ n ∧ n < 0xFA) : resetByte n = 0xFF := by
  rcases h with h | ⟨h, h'⟩
  · exact if_pos h
  · rw [resetByte, if_neg (by omega), if_neg (by omega), if_pos h']

/-- The two calibration copies, 16 cells each (R25, R41). -/
theorem resetByte_cal {i : Nat} (hi : i < 16) :
    resetByte (0x20 + i) = (calBlock Config.calPayload).getD i 0xFF ∧
      resetByte (0x30 + i) = (calBlock Config.calPayload).getD i 0xFF := by
  have hfirst : (0x20 + i) % 16 = i := by omega
  have hsecond : (0x30 + i) % 16 = i := by omega
  constructor
  · rw [resetByte, if_neg (by omega), if_pos (by omega), hfirst]
  · rw [resetByte, if_neg (by omega), if_pos (by omega), hsecond]

/-- The identification block (R28, R41). -/
theorem resetByte_id (i : Nat) : resetByte (0xFA + i) = Config.idBlock.toList.getD i 0xFF := by
  have hi : 0xFA + i - 0xFA = i := by omega
  rw [resetByte, if_neg (by omega), if_neg (by omega), if_neg (by omega), hi]

/-- A run of writes that ends at 0xFF or before puts its bytes in its own cells and leaves the others alone (R103). -/
theorem Memory.read_writeRange {a : Byte} {vs : List Byte} (h : a.toNat + vs.length ≤ 256) (m : Memory) (x d : Byte) :
    (Memory.writeRange a vs m).read x =
      if a.toNat ≤ x.toNat ∧ x.toNat < a.toNat + vs.length then vs.getD (x.toNat - a.toNat) d else m.read x := by
  induction vs generalizing a m with
  | nil => exact (if_neg fun hx => absurd hx.2 (not_lt.mpr hx.1)).symm
  | cons v vs ih =>
    have hlen : (v :: vs).length = vs.length + 1 := rfl
    have hhead : x = a ↔ x.toNat = a.toNat := BitVec.toNat_inj.symm
    have hend : vs.length = 0 ∨ (a + 1).toNat = a.toNat + 1 := by bv_omega
    have htail : (a + 1).toNat + vs.length ≤ 256 := by bv_omega
    have hrun : (a + 1).toNat ≤ x.toNat ∧ x.toNat < (a + 1).toNat + vs.length ↔
        a.toNat < x.toNat ∧ x.toNat < a.toNat + (v :: vs).length := by omega
    rw [Memory.writeRange, ih htail, Memory.read_write]
    by_cases hin : a.toNat < x.toNat ∧ x.toNat < a.toNat + (v :: vs).length
    · have hidx : x.toNat - a.toNat = x.toNat - (a + 1).toNat + 1 := by omega
      rw [if_pos (hrun.mpr hin), if_pos ⟨hin.1.le, hin.2⟩, hidx, List.getD_cons_succ]
    · rw [if_neg (mt hrun.mp hin)]
      by_cases hx : x = a
      · have hxn := hhead.mp hx
        rw [if_pos hx, if_pos (by omega), hxn, Nat.sub_self, List.getD_cons_zero]
      · have hxn := mt hhead.mpr hx
        rw [if_neg hx, if_neg (by omega)]

/-- A run of one value from 0x00 on. -/
theorem Memory.read_writeRange_replicate {n : Nat} (h : n ≤ 256) (m : Memory) (v x : Byte) :
    (Memory.writeRange 0x00 (List.replicate n v) m).read x = if x.toNat < n then v else m.read x := by
  rw [Memory.read_writeRange (by simpa using h) m x v]
  simp

/-- The fill leaves 0xFF in every cell (R270). -/
theorem Memory.read_fill (m : Memory) (x : Byte) : m.fill.read x = 0xFF := by
  rw [Memory.fill, Memory.read_writeRange_replicate le_rfl, if_pos x.isLt]

/-- The parts of the register space that STARTUP writes (R25, R28, R41). -/
theorem resetPart_cases {n : Nat} : (n < 0x20 ∨ 0x40 ≤ n ∧ n < 0xFA) ∨ (∃ i < 16, n = 0x20 + i) ∨
    (∃ i < 16, n = 0x30 + i) ∨ ∃ i, n = 0xFA + i := by
  by_cases hfill : n < 0x20 ∨ 0x40 ≤ n ∧ n < 0xFA
  · exact .inl hfill
  · by_cases hid : 0xFA ≤ n
    · exact .inr (.inr (.inr ⟨n - 0xFA, by omega⟩))
    · by_cases hsecond : 0x30 ≤ n
      · exact .inr (.inr (.inl ⟨n - 0x30, by omega, by omega⟩))
      · exact .inr (.inl ⟨n - 0x20, by omega, by omega⟩)

/-- STARTUP's writes leave every cell at its reset contents (R41, R270). -/
theorem Memory.read_startup {m m' : Memory} (h : Memory.startup m = .ok m') (x : Byte) :
    m'.read x = resetByte x.toNat := by
  obtain rfl := Except.ok.inj ((Memory.startup_eq m).symm.trans h)
  have hx := x.isLt
  have h20 : (0x20 : Byte).toNat = 0x20 := rfl
  have h30 : (0x30 : Byte).toNat = 0x30 := rfl
  have hFA : (0xFA : Byte).toNat = 0xFA := rfl
  rw [Memory.read_writeRange (by simp) _ x 0xFF, Memory.read_writeRange (by simp) _ x 0xFF,
    Memory.read_writeRange (by simp) _ x 0xFF, Memory.read_fill, calBlock_length, Vector.length_toList, h20, h30, hFA]
  rcases resetPart_cases (n := x.toNat) with hfill | ⟨i, hi, hn⟩ | ⟨i, hi, hn⟩ | ⟨i, hn⟩
  · rw [resetByte_fill hfill, if_neg (by omega), if_neg (by omega), if_neg (by omega)]
  · rw [hn, (resetByte_cal hi).1, if_neg (by omega), if_pos (by omega), Nat.add_sub_cancel_left]
  · rw [hn, (resetByte_cal hi).2, if_pos (by omega), Nat.add_sub_cancel_left]
  · rw [hn, resetByte_id, if_neg (by omega), if_neg (by omega), if_pos (by omega), Nat.add_sub_cancel_left]

/-- A memory in canonical form that reads as the reset contents lists no cell. -/
theorem Memory.eq_nil_of_read_reset {m : Memory} (hwf : m.wf) (h : ∀ x : Byte, m.read x = resetByte x.toNat) : m = [] := by
  cases m with
  | nil => rfl
  | cons c m =>
    obtain ⟨hlt, hne⟩ := hwf.2 c List.mem_cons_self
    have hc : (BitVec.ofNat 8 c.1).toNat = c.1 := by rw [BitVec.toNat_ofNat]; exact Nat.mod_eq_of_lt hlt
    have hread := h (BitVec.ofNat 8 c.1)
    rw [Memory.read, hc, Memory.lookup, if_pos rfl] at hread
    exact absurd hread hne

/-- Settles O42: after STARTUP's writes every cell reads as at reset, and in canonical form that is the reset memory. -/
theorem startupGivesReset : Obligations.StartupGivesReset := by
  intro s hs hwf
  obtain ⟨m, hm, hexec⟩ := exec_startup_before hs
  have hnil : m = [] := Memory.eq_nil_of_read_reset (Memory.wf_startup hwf hm) (Memory.read_startup hm)
  rw [hexec, hnil]
  rfl

/-- A cell of the register space reads at reset as its reset contents (R41). -/
theorem reset_read (a : Byte) : State.reset.rf.read a = resetByte a.toNat := rfl

/-- A slice is the list whose elements its cells hold. -/
theorem Memory.readRange_eq {m : Memory} {a : Byte} {n : Nat} {l : List Byte} (hlen : l.length = n)
    (h : ∀ i, i < n → m.read (a + BitVec.ofNat 8 i) = l.getD i 0xFF) : m.readRange a n = l := by
  refine List.ext_getElem (by rw [Memory.readRange_length, hlen]) fun i hi hi' => ?_
  have hin : i < n := hlen ▸ hi'
  have hcell := List.getElem?_eq_some_iff.mp (Memory.getElem?_readRange m a hin)
  rw [hcell.2, h i hin, List.getD_eq_getElem _ _ hi']

/-- Settles O43: the four parts of the reset contents, cell by cell. -/
theorem resetRegisterFile : Obligations.ResetRegisterFile := by
  refine ⟨fun a ha => (reset_read a).trans (resetByte_fill ha), ?_, ?_, ?_⟩
  · refine Memory.readRange_eq (calBlock_length _) fun i hi => ?_
    have haddr : ((0x20 : Byte) + BitVec.ofNat 8 i).toNat = 0x20 + i := by bv_omega
    rw [reset_read, haddr, (resetByte_cal hi).1]
  · refine Memory.readRange_eq (calBlock_length _) fun i hi => ?_
    have haddr : ((0x30 : Byte) + BitVec.ofNat 8 i).toNat = 0x30 + i := by bv_omega
    rw [reset_read, haddr, (resetByte_cal hi).2]
  · refine Memory.readRange_eq Vector.length_toList fun i hi => ?_
    have haddr : ((0xFA : Byte) + BitVec.ofNat 8 i).toNat = 0xFA + i := by bv_omega
    rw [reset_read, haddr, resetByte_id]

end Sys2Proof.Machine

/-! ## State: what a field not consulted can change (R33, R37, R204) -/

namespace Sys2Proof.Machine

/-! ### Two runs side by side: the checks every operation makes -/

/-- Both outcomes are next states, and these are related. -/
def BothNext (R : State → State → Prop) (o o' : Result) : Prop := ∃ s' t', o = .next s' ∧ o' = .next t' ∧ R s' t'

/-- Related states give the same answers to the checks, and being refused keeps them related (R83, R243, R271). -/
structure CheckedAlike (R : State → State → Prop) : Prop where
  started : ∀ {s t}, R s t → t.started = s.started
  state : ∀ {s t}, R s t → t.state = s.state
  refuse : ∀ {s t}, R s t → ∀ r, R (s.refuse r) (t.refuse r)

section
variable {R : State → State → Prop} {s t u v : State}

/-- A refusal has the same name in both. -/
theorem CheckedAlike.refuseWith (hR : CheckedAlike R) (h : R s t) (r : RefuseReason) :
    BothNext R (refuseWith r s) (refuseWith r t) := by
  refine ⟨_, _, rfl, rfl, ?_⟩
  rw [hR.started h]
  exact hR.refuse h _

/-- A checked operation runs in both or is refused in both. -/
theorem CheckedAlike.whenStarted (hR : CheckedAlike R) (h : R s t) (hnext : R u v) :
    BothNext R (whenStarted s u) (whenStarted t v) := by
  unfold Machine.whenStarted
  rw [hR.started h]
  split
  · exact ⟨u, v, rfl, rfl, hnext⟩
  · exact hR.refuseWith h _

/-- A read operation is selected in both or in neither. -/
theorem CheckedAlike.whenSelected (hR : CheckedAlike R) (op : Instr) (h : R s t) (hnext : R u v) :
    BothNext R (whenSelected op s u) (whenSelected op t v) := by
  unfold Machine.whenSelected
  rw [hR.state h]
  split
  · exact hR.whenStarted h hnext
  · exact hR.refuseWith h _

end

/-! ### Another input -/

/-- The state with another controller input. -/
def State.withInput (x : Input) (s : State) : State := { s with inp := x }

theorem storeByte_withInput (x : Input) (cur raw : Byte) (s : State) :
    storeByte cur raw (s.withInput x) = (storeByte cur raw s).withInput x := by
  by_cases hcur : cur = 0x4F
  · rw [hcur, storeByte_at_4F, storeByte_at_4F]
    rfl
  · rw [storeByte_of_ne hcur, storeByte_of_ne hcur]
    rfl

theorem storeBytes_withInput (x : Input) (cur : Byte) (d : List Byte) (s : State) :
    storeBytes cur d (s.withInput x) = (storeBytes cur d s).withInput x := by
  induction d generalizing cur s with
  | nil => rfl
  | cons raw rest ih => rw [storeBytes, storeByte_withInput, ih, storeBytes]

theorem notifyWrite_withInput (x : Input) (a : Byte) (n : Nat) (s : State) :
    (s.withInput x).notifyWrite a n = (s.notifyWrite a n).withInput x := by
  rw [notifyWrite_eq, notifyWrite_eq]
  rfl

theorem askStreamHook_withInput (x : Input) (sent : Buf6) (s : State) :
    (s.withInput x).askStreamHook sent = (s.askStreamHook sent).withInput x := by
  rw [askStreamHook_eq, askStreamHook_eq]
  rfl

/-- The second state is the first with input `x`. -/
abbrev SameButInput (x : Input) (s t : State) : Prop := t = s.withInput x

theorem SameButInput.checkedAlike (x : Input) : CheckedAlike (SameButInput x) where
  started h := (congrArg State.started h :)
  state h := (congrArg State.state h :)
  refuse h r := (congrArg (State.refuse r) h :)

/-- A transport event does the same whatever the input (R37, R204). -/
theorem exec_withInput {i : Instr} (hi : i.agent = .ev) (s : State) (x : Input) :
    BothNext (SameButInput x) (exec i s) (exec i (s.withInput x)) := by
  have hR := SameButInput.checkedAlike x
  have hs : SameButInput x s (s.withInput x) := rfl
  cases i with
  | wrAddr a => exact hR.whenStarted hs rfl
  | wrData a d =>
    simp only [exec, execWrData]
    split
    · exact hR.refuseWith hs _
    · split
      · exact hR.refuseWith hs _
      · refine hR.whenStarted hs ?_
        rw [storeBytes_withInput, notifyWrite_withInput]
  | rdReport =>
    exact hR.whenSelected _ hs
      (askStreamHook_withInput x s.active ((s.setCursor (some reportReg, 0x00)).respond s.active.toList reportReg))
  | rdId | rdCal | rdBlock => exact hR.whenSelected _ hs rfl
  | _ => exact nomatch hi

/-- A transport event leaves the input alone (R39). -/
theorem event_inp {i : Instr} {s t : State} (hi : i.agent = .ev) (h : exec i s = .next t) : t.inp = s.inp := by
  rcases exec_cases h with heff | ⟨r, rfl⟩
  · cases hr : i.isRead
    · exact (congrArg State.inp (writeEffect_eq hi hr heff) :)
    · exact (congrArg State.inp (readEffect_eq hr heff) :)
  · rfl

/-- Settles O49: the event does the same with either input, and keeps the one there is. -/
theorem eventsIgnoreTheInput : Obligations.EventsIgnoreTheInput := by
  intro i s x hi
  obtain ⟨t, _, ht, ht', rfl⟩ := exec_withInput hi s x
  exact ⟨t, ht, event_inp hi ht, ht'⟩

/-! ### Another idle key schedule -/

/-- The state with another key schedule. -/
def State.withSchedule (fb sb : Table) (seed : Seed) (key : Key) (s : State) : State :=
  { s with fb := fb, sb := sb, seedArr := seed, keyArr := key }

theorem SameButIdleSchedule.refl (s : State) : SameButIdleSchedule s s := ⟨rfl, fun _ => rfl⟩

theorem sameButIdleSchedule_withSchedule {s : State} (hidle : s.ready = false) (fb sb : Table) (seed : Seed) (key : Key) :
    SameButIdleSchedule s (s.withSchedule fb sb seed key) :=
  ⟨rfl, fun hready => absurd (hidle.symm.trans hready) Bool.false_ne_true⟩

/-- Two such states are the same, or idle with another schedule (R33). -/
theorem SameButIdleSchedule.cases {s t : State} (h : SameButIdleSchedule s t) :
    t = s ∨ s.ready = false ∧ ∃ fb sb seed key, t = s.withSchedule fb sb seed key := by
  obtain ⟨hsame, hready⟩ := h
  cases hr : s.ready
  · exact .inr ⟨rfl, _, _, _, _, hsame⟩
  · exact .inl (hready hr)

/-- A change that does not look at an idle schedule, and leaves it idle, keeps the two states so related. -/
theorem SameButIdleSchedule.map {f : State → State} {s t : State} (h : SameButIdleSchedule s t)
    (hf : ∀ fb sb seed key, s.ready = false →
      f (s.withSchedule fb sb seed key) = (f s).withSchedule fb sb seed key)
    (hready : (f s).ready = s.ready) : SameButIdleSchedule (f s) (f t) := by
  rcases h.cases with rfl | ⟨hidle, fb, sb, seed, key, rfl⟩
  · exact .refl _
  · rw [hf fb sb seed key hidle]
    exact sameButIdleSchedule_withSchedule (hready.trans hidle) fb sb seed key

theorem SameButIdleSchedule.checkedAlike : CheckedAlike SameButIdleSchedule where
  started h := (congrArg State.started h.1 :)
  state h := (congrArg State.state h.1 :)
  refuse h r := h.map (f := State.refuse r) (fun _ _ _ _ _ => rfl) rfl

theorem cipherActive_idle {s : State} (h : s.ready = false) : cipherActive s = false := by simp [cipherActive, h]

/-- While the schedule is idle a response is its plaintext (R121). -/
theorem respond_idle {s : State} (h : s.ready = false) (pt : List Byte) (start : Byte) :
    s.respond pt start = s.emit (.response pt) := by
  rw [State.respond, xform_inactive (cipherActive_idle h)]

/-- While the schedule is idle a data byte is stored raw (R121). -/
theorem storedValue_idle {s : State} (h : s.ready = false) (cur raw : Byte) : storedValue s cur raw = raw := by
  simp [storedValue, cipherActive_idle h]

section
variable {s t : State}

theorem SameButIdleSchedule.respond (h : SameButIdleSchedule s t) (pt : List Byte) (start : Byte) :
    SameButIdleSchedule (s.respond pt start) (t.respond pt start) := by
  refine h.map (f := State.respond pt start) (fun fb sb seed key hidle => ?_) rfl
  rw [respond_idle hidle, respond_idle (s := s.withSchedule fb sb seed key) hidle]
  rfl

theorem SameButIdleSchedule.setCursor (h : SameButIdleSchedule s t) (c : Option Byte × Byte) :
    SameButIdleSchedule (s.setCursor c) (t.setCursor c) := h.map (f := State.setCursor c) (fun _ _ _ _ _ => rfl) rfl

theorem SameButIdleSchedule.askStreamHook (h : SameButIdleSchedule s t) (sent : Buf6) :
    SameButIdleSchedule (s.askStreamHook sent) (t.askStreamHook sent) := by
  refine h.map (f := State.askStreamHook sent) (fun fb sb seed key _ => ?_) ?_
  · rw [askStreamHook_eq, askStreamHook_eq]
    rfl
  · rw [askStreamHook_eq]

theorem SameButIdleSchedule.notifyWrite (h : SameButIdleSchedule s t) (a : Byte) (n : Nat) :
    SameButIdleSchedule (s.notifyWrite a n) (t.notifyWrite a n) := by
  refine h.map (f := State.notifyWrite a n) (fun fb sb seed key _ => ?_) ?_
  · rw [notifyWrite_eq, notifyWrite_eq]
    rfl
  · rw [notifyWrite_eq]

/-- While the schedule is idle a data byte is stored raw, whatever its force-disable test (R121, R144). -/
theorem storedValue_forceDisable_idle (h : s.ready = false) (cur raw : Byte) :
    storedValue (s.forceDisable cur raw) cur raw = raw :=
  storedValue_idle (by rw [State.forceDisable_ready, h]; rfl) cur raw

/-- One data byte: at 0x4F it makes two idle states equal, since the key setup overwrites the whole schedule (R126);
elsewhere it is stored raw in both. -/
theorem SameButIdleSchedule.storeByte (h : SameButIdleSchedule s t) (cur raw : Byte) :
    SameButIdleSchedule (storeByte cur raw s) (storeByte cur raw t) := by
  rcases h.cases with rfl | ⟨hidle, fb, sb, seed, key, rfl⟩
  · exact .refl _
  have hraw := storedValue_forceDisable_idle hidle cur raw
  have hraw' := storedValue_forceDisable_idle (s := s.withSchedule fb sb seed key) hidle cur raw
  by_cases hcur : cur = 0x4F
  · subst hcur
    have hequal : Machine.storeByte 0x4F raw (s.withSchedule fb sb seed key) = Machine.storeByte 0x4F raw s := by
      rw [storeByte_at_4F, storeByte_at_4F, hraw, hraw']
      rfl
    rw [hequal]
    exact .refl _
  · rw [storeByte_of_ne hcur, storeByte_of_ne hcur, hraw, hraw']
    refine sameButIdleSchedule_withSchedule (s := (s.forceDisable cur raw).writeCell cur raw) ?_ fb sb seed key
    rw [State.writeCell_ready, State.forceDisable_ready, hidle]
    rfl

theorem SameButIdleSchedule.storeBytes (h : SameButIdleSchedule s t) (cur : Byte) (d : List Byte) :
    SameButIdleSchedule (storeBytes cur d s) (storeBytes cur d t) := by
  induction d generalizing cur s t with
  | nil => exact h
  | cons raw rest ih => exact ih (h.storeByte cur raw) (cur + 1)

end

/-- A checked operation that does not look at the schedule (R34). -/
theorem SameButIdleSchedule.whenStarted {s t : State} (h : SameButIdleSchedule s t) (f : State → State)
    (hf : ∀ fb sb seed key, f (s.withSchedule fb sb seed key) = (f s).withSchedule fb sb seed key)
    (hready : (f s).ready = s.ready) :
    BothNext SameButIdleSchedule (whenStarted s (f s)) (whenStarted t (f t)) :=
  SameButIdleSchedule.checkedAlike.whenStarted h (h.map (fun fb sb seed key _ => hf fb sb seed key) hready)

/-- STARTUP overwrites the whole schedule: it makes the two states equal (R270). -/
theorem SameButIdleSchedule.startupWith {s t : State} (h : SameButIdleSchedule s t) (m : Memory) :
    SameButIdleSchedule (s.startupWith m) (t.startupWith m) := by
  have hsame : t.startupWith m = s.startupWith m := by
    rcases h.cases with rfl | ⟨-, fb, sb, seed, key, rfl⟩ <;> rfl
  rw [hsame]
  exact .refl _

/-- Every operation does the same on both states. -/
theorem SameButIdleSchedule.exec {s t : State} (h : SameButIdleSchedule s t) (i : Instr) :
    BothNext SameButIdleSchedule (exec i s) (exec i t) := by
  have hR := SameButIdleSchedule.checkedAlike
  have hstate : t.state = s.state := hR.state h
  have hlast : t.lastState = s.lastState := (congrArg State.lastState h.1 :)
  have hoff : t.blockOffset = s.blockOffset := (congrArg State.blockOffset h.1 :)
  have hrf : t.rf = s.rf := (congrArg State.rf h.1 :)
  have hact : t.active = s.active := (congrArg State.active h.1 :)
  cases i with
  | wrAddr a => exact h.whenStarted (fun u => { u with state := a }) (fun _ _ _ _ => rfl) rfl
  | wrData a d =>
    simp only [Machine.exec, execWrData]
    split
    · exact hR.refuseWith h _
    · split
      · exact hR.refuseWith h _
      · exact hR.whenStarted h ((h.storeBytes a d).notifyWrite a d.length)
  | rdReport =>
    simp only [Machine.exec, execRdReport, hact]
    exact hR.whenSelected _ h (((h.setCursor _).respond _ _).askStreamHook _)
  | rdId =>
    simp only [Machine.exec, execRdId, hrf]
    exact hR.whenSelected _ h ((h.setCursor _).respond _ _)
  | rdCal =>
    simp only [Machine.exec, execRdCal, hstate, hlast, hrf]
    exact hR.whenSelected _ h ((h.setCursor _).respond _ _)
  | rdBlock =>
    simp only [Machine.exec, execRdBlock, hstate, hlast, hoff, hrf]
    exact hR.whenSelected _ h ((h.setCursor _).respond _ _)
  | rfGet a => exact h.whenStarted (fun u => u.emit (.rfGetResult (u.rf.read a))) (fun _ _ _ _ => rfl) rfl
  | setInput w => exact h.whenStarted (fun u => { u with inp := Input.set w u.inp }) (fun _ _ _ _ => rfl) rfl
  | encode => exact h.whenStarted (fun u => u.emit (.encodeResult (encodeReport u.inp))) (fun _ _ _ _ => rfl) rfl
  | bufPoke j v =>
    simp only [Machine.exec, execBufPoke]
    split
    · exact hR.refuseWith h _
    · exact h.whenStarted (fun u => u.setActive (u.active.setIfInBounds j v)) (fun _ _ _ _ => rfl) rfl
  | bufSwap b =>
    exact h.whenStarted (fun u => (u.setActive b).emit (.swapResult u.active)) (fun _ _ _ _ => rfl) rfl
  | regWriteHook r => exact h.whenStarted (fun u => { u with writeHookReg := r }) (fun _ _ _ _ => rfl) rfl
  | regStreamHook r => exact h.whenStarted (fun u => { u with streamHookReg := r }) (fun _ _ _ _ => rfl) rfl
  | startup =>
    simp only [Machine.exec, execStartup, hR.started h, hrf]
    split
    · exact hR.refuseWith h _
    · split
      · exact ⟨_, _, rfl, rfl, h.startupWith _⟩
      · exact ⟨_, _, rfl, rfl, hR.refuse h _⟩

theorem takeEvent_withSchedule (fb sb : Table) (seed : Seed) (key : Key) (s : State) :
    takeEvent (s.withSchedule fb sb seed key) =
      (takeEvent s).map (Prod.map id (State.withSchedule fb sb seed key)) := by
  cases he : s.events <;> simp [takeEvent, State.withSchedule, he]

theorem takeCall_withSchedule (fb sb : Table) (seed : Seed) (key : Key) (s : State) :
    takeCall (s.withSchedule fb sb seed key) =
      (takeCall s).map (Prod.map id (State.withSchedule fb sb seed key)) := by
  cases hc : s.calls <;> simp [takeCall, State.withSchedule, hc]

/-- What is taken next does not depend on the schedule, which stays as it is (R69, R250). -/
theorem fetch_withSchedule (fb sb : Table) (seed : Seed) (key : Key) (s : State) :
    fetch (s.withSchedule fb sb seed key) = (fetch s).map (Prod.map id (State.withSchedule fb sb seed key)) := by
  have hturn : appTurn (s.withSchedule fb sb seed key) = appTurn s := rfl
  rw [fetch, fetch, hturn, takeEvent_withSchedule, takeCall_withSchedule]
  split <;> rw [Option.map_or]

/-- Taking an input leaves `ready` alone. -/
theorem fetch_ready {s u : State} {f : Frame} (h : fetch s = some (f, u)) : u.ready = s.ready :=
  (congrArg State.ready (fetch_eq h) :)

/-- Both take the same pending input, or have none. -/
theorem SameButIdleSchedule.fetch {s t : State} (h : SameButIdleSchedule s t) :
    (fetch s = none ∧ fetch t = none) ∨
      ∃ f u v, fetch s = some (f, u) ∧ fetch t = some (f, v) ∧ SameButIdleSchedule u v := by
  cases hs : Machine.fetch s with
  | none =>
    refine .inl ⟨rfl, ?_⟩
    rcases h.cases with rfl | ⟨-, fb, sb, seed, key, rfl⟩
    · exact hs
    · rw [fetch_withSchedule, hs]
      rfl
  | some taken =>
    obtain ⟨f, u⟩ := taken
    rcases h.cases with rfl | ⟨hidle, fb, sb, seed, key, rfl⟩
    · exact .inr ⟨f, u, u, rfl, hs, .refl u⟩
    · refine .inr ⟨f, u, u.withSchedule fb sb seed key, rfl, ?_,
        sameButIdleSchedule_withSchedule ((fetch_ready hs).trans hidle) fb sb seed key⟩
      rw [fetch_withSchedule, hs]
      rfl

/-- One step of both. -/
theorem SameButIdleSchedule.step {s t : State} (h : SameButIdleSchedule s t) :
    BothNext SameButIdleSchedule (step s) (step t) := by
  rcases h.fetch with ⟨hs, ht⟩ | ⟨f, u, v, hs, ht, huv⟩
  · exact ⟨s, t, by rw [Machine.step, hs], by rw [Machine.step, ht], h⟩
  · have hR := SameButIdleSchedule.checkedAlike
    rw [step_of_fetch_some hs, step_of_fetch_some ht, perform, perform, hR.state huv]
    split
    · exact huv.exec _
    · exact hR.refuseWith huv _

/-- A run whose first step answers next goes on from there. -/
theorem run_succ_of_step {s s' : State} (h : step s = .next s') (n : Nat) :
    Host.Core.run Sys2Proof.core (n + 1) s = Host.Core.run Sys2Proof.core n s' := by
  have hcore : Sys2Proof.core.step s = .next s' := h
  simp only [Host.Core.run, hcore]

/-- Any number of steps of both. -/
theorem SameButIdleSchedule.run {s t : State} (h : SameButIdleSchedule s t) (n : Nat) :
    BothNext SameButIdleSchedule (Host.Core.run Sys2Proof.core n s) (Host.Core.run Sys2Proof.core n t) := by
  induction n generalizing s t with
  | zero => exact ⟨s, t, rfl, rfl, h⟩
  | succ n ih =>
    obtain ⟨s', t', hs, ht, h'⟩ := h.step
    rw [run_succ_of_step hs, run_succ_of_step ht]
    exact ih h'

/-- Settles O48: by induction on the number of steps; the trace is not part of the schedule. -/
theorem idleScheduleIsUnobservable : Obligations.IdleScheduleIsUnobservable := by
  intro n s t h
  obtain ⟨s', t', hs, ht, h'⟩ := h.run n
  exact ⟨s', t', hs, ht, h', (congrArg State.trace h'.1 :).symm⟩

end Sys2Proof.Machine

/-! ## Memory reads: an operation answers its effect, and what a read event's effect puts on the wire (R65, R84, R171) -/

namespace Sys2Proof.Machine

/-- A selected read after STARTUP answers its own next state (R83, R243). -/
theorem whenSelected_started {op : Instr} {s : State} (hs : s.started = true) (hsel : selectRead s.state = op) (t : State) :
    whenSelected op s t = .next t :=
  (whenSelected_selected hsel t).trans (whenStarted_started hs t)

/-- Where an operation's own effect is allowed, it is what the operation answers: `exec_cases` the other way round. -/
theorem HasEffect.exec_eq {i : Instr} {s t : State} (h : HasEffect i s t) : exec i s = .next t := by
  cases i with
  | wrAddr _ | rfGet _ | setInput _ | encode | bufSwap _ | regWriteHook _ | regStreamHook _ =>
    obtain ⟨hs, rfl⟩ := h
    exact whenStarted_started hs _
  | wrData a d =>
    obtain ⟨hs, h1, h7, rfl⟩ := h
    exact exec_wrData hs a h1 h7
  | rdReport | rdId | rdCal | rdBlock =>
    obtain ⟨hs, hsel, rfl⟩ := h
    exact whenSelected_started hs hsel _
  | bufPoke i v =>
    obtain ⟨hs, hi, rfl⟩ := h
    exact (if_neg (Nat.not_lt.mpr hi)).trans (whenStarted_started hs _)
  | startup =>
    obtain ⟨hs, m, hm, rfl⟩ := h
    obtain ⟨m', hm', he⟩ := exec_startup_before hs
    obtain rfl := Except.ok.inj (hm.symm.trans hm')
    exact he

/-- After STARTUP the read that the stored `state` selects has its effect (R83, R170). -/
theorem exists_hasEffect_selectRead {s : State} (hs : s.started = true) : ∃ t, HasEffect (selectRead s.state) s t := by
  have hread := selectRead_isRead s.state
  cases hsel : selectRead s.state with
  | rdReport | rdId | rdCal | rdBlock => exact ⟨_, hs, hsel, rfl⟩
  | _ => exact nomatch hsel ▸ hread

/-- The transform keeps the length of a response, with the cipher active or not (R84). -/
@[simp] theorem xform_length (s : State) (pt : List Byte) (start : Byte) : (xform s pt start).length = pt.length := by
  cases h : cipherActive s <;> simp [xform, h]

/-- What a response and then the streaming hook add to the trace (R172, R224). -/
theorem respond_askStreamHook_trace (pt : List Byte) (start : Byte) (sent : Buf6) (s : State) :
    ((s.respond pt start).askStreamHook sent).trace =
      s.trace ++ .response (xform s pt start) ::
        if s.streamHookReg then .hookAsked sent :: callBackOutputs s.collab else [] := by
  rw [askStreamHook_eq, State.respond_trace]
  exact List.append_assoc ..

/-- The first output of a read is XFORM of its plaintext: 6 bytes of the report or the identification block, or a slice
of 8 (R65, R171). -/
theorem readEffect_trace {i : Instr} {s t : State} (hi : i.isRead = true) (h : HasEffect i s t) :
    ∃ pt start rest, t.trace = s.trace ++ .response (xform s pt start) :: rest ∧
      pt.length = if i = .rdReport ∨ i = .rdId then 6 else 8 := by
  cases i with
  | rdReport =>
    obtain ⟨-, -, rfl⟩ := h
    exact ⟨s.active.toList, reportReg, _, respond_askStreamHook_trace .., by simp⟩
  | rdId =>
    obtain ⟨-, -, rfl⟩ := h
    exact ⟨_, _, [], rfl, Memory.readRange_length ..⟩
  | rdCal | rdBlock =>
    obtain ⟨-, -, rfl⟩ := h
    exact ⟨_, _, [], rfl, Memory.readRange_length ..⟩
  | _ => exact nomatch hi

/-- The outputs since a state are what the trace holds after that state's own (R257). -/
theorem outputsSince_eq {s t : State} {os : List Output} (h : t.trace = s.trace ++ os) : outputsSince s t = os := by
  rw [outputsSince, h, List.drop_left]

/-- The addresses that select a 6-byte response (R83, R84). -/
theorem selectRead_six_iff (st : Byte) :
    selectRead st = .rdReport ∨ selectRead st = .rdId ↔ st = 0x00 ∨ st = 0xFA := by
  rw [selectRead_eq]
  split_ifs <;> simp_all

/-- Settles O30: the selected read's effect starts with XFORM of its plaintext, whose length XFORM keeps. -/
theorem responseLengths : Obligations.ResponseLengths := by
  intro s hs
  obtain ⟨t, heff⟩ := exists_hasEffect_selectRead hs
  obtain ⟨pt, start, rest, htrace, hlen⟩ := readEffect_trace (selectRead_isRead s.state) heff
  refine ⟨t, xform s pt start, heff.exec_eq, ?_, ?_⟩
  · rw [outputsSince_eq htrace]
    rfl
  · simp only [xform_length, hlen, selectRead_six_iff]

/-- Settles O23: RD_REPORT's effect, with all that the streaming hook does written out by `askStreamHook_eq`. -/
theorem rdReportResult : Obligations.RdReportResult := by
  intro s hs hst
  have hsel : selectRead s.state = .rdReport := by rw [hst]; rfl
  have heff : HasEffect .rdReport s _ := ⟨hs, hsel, rfl⟩
  rw [heff.exec_eq, askStreamHook_eq, State.respond_trace, List.append_assoc]
  rfl

end Sys2Proof.Machine

/-! ## Encoding: which frames decode, and to what (R81-R83, R86, R88) -/

namespace Sys2Proof

/-- The arguments that are read as the byte `b` (R100). -/
theorem byteArg_eq_some_iff {n : Nat} {b : Byte} : byteArg n = some b ↔ n = b.toNat :=
  ⟨byteArg_some, fun h => h ▸ byteArg_toNat b⟩

/-- An argument above 0xFF is no byte (R100). -/
theorem byteArg_eq_none {n : Nat} (h : 0xFF < n) : byteArg n = none := if_neg (Nat.not_lt.mpr h)

/-- The arguments that are read as the bit `b` (R204, R226, R227). -/
theorem bitArg_eq_some_iff {n : Nat} {b : Bool} : bitArg n = some b ↔ n = b.toNat :=
  ⟨bitArg_some, fun h => h ▸ bitArg_toNat b⟩

/-- The decoder of a call with one argument: RF_GET, SET_INPUT and the two registrations all have this shape. -/
def decodeOneArg {α : Type} (parse : Nat → Option α) (op : α → Instr) (r : RefuseReason) :
    List Nat → Except RefuseReason Instr
  | [n] => (parse n).elim (.error r) fun v => .ok (op v)
  | _ => .error .badArguments

theorem decodeRfGet_eq_oneArg (args : List Nat) :
    decodeRfGet args = decodeOneArg byteArg .rfGet .addressRange args := by
  match args with
  | [] | _ :: _ :: _ => rfl
  | [n] => cases h : byteArg n <;> simp [decodeRfGet, decodeOneArg, h]

theorem decodeSetAxis_eq_oneArg (f : Axis) (args : List Nat) :
    decodeSetAxis f args = decodeOneArg byteArg (fun v => .setInput (.axis f v)) .badArguments args := by
  match args with
  | [] | _ :: _ :: _ => rfl
  | [n] => cases h : byteArg n <;> simp [decodeSetAxis, decodeOneArg, h]

theorem decodeSetFlag_eq_oneArg (f : Flag) (args : List Nat) :
    decodeSetFlag f args = decodeOneArg bitArg (fun v => .setInput (.flag f v)) .badArguments args := by
  match args with
  | [] | _ :: _ :: _ => rfl
  | [n] => cases h : bitArg n <;> simp [decodeSetFlag, decodeOneArg, h]

theorem decodeBit_eq_oneArg (op : Bool → Instr) (args : List Nat) :
    decodeBit op args = decodeOneArg bitArg op .badArguments args := by
  match args with
  | [] | _ :: _ :: _ => rfl
  | [n] => cases h : bitArg n <;> simp [decodeBit, decodeOneArg, h]

/-- A call with one argument is accepted exactly where the argument stands for an operand (R86). -/
theorem decodeOneArg_eq_ok_iff {α : Type} {parse : Nat → Option α} {enc : α → Nat}
    (hparse : ∀ {n v}, parse n = some v ↔ n = enc v) {op : α → Instr} {r : RefuseReason} {args : List Nat}
    {i : Instr} : decodeOneArg parse op r args = .ok i ↔ ∃ v, args = [enc v] ∧ i = op v := by
  constructor
  · intro h
    match args, h with
    | [n], h =>
      cases hn : parse n with
      | none => simp [decodeOneArg, hn] at h
      | some v =>
        simp only [decodeOneArg, hn, Option.elim_some, Except.ok.injEq] at h
        exact ⟨v, by rw [hparse.mp hn], h.symm⟩
  · rintro ⟨v, rfl, rfl⟩
    simp [decodeOneArg, hparse.mpr rfl]

theorem decodeRfGet_eq_ok_iff {args : List Nat} {i : Instr} :
    decodeRfGet args = .ok i ↔ ∃ a : Byte, args = [a.toNat] ∧ i = .rfGet a := by
  rw [decodeRfGet_eq_oneArg, decodeOneArg_eq_ok_iff byteArg_eq_some_iff]

theorem decodeSetAxis_eq_ok_iff {f : Axis} {args : List Nat} {i : Instr} :
    decodeSetAxis f args = .ok i ↔ ∃ v : Byte, args = [v.toNat] ∧ i = .setInput (.axis f v) := by
  rw [decodeSetAxis_eq_oneArg, decodeOneArg_eq_ok_iff byteArg_eq_some_iff]

theorem decodeSetFlag_eq_ok_iff {f : Flag} {args : List Nat} {i : Instr} :
    decodeSetFlag f args = .ok i ↔ ∃ v : Bool, args = [v.toNat] ∧ i = .setInput (.flag f v) := by
  rw [decodeSetFlag_eq_oneArg, decodeOneArg_eq_ok_iff bitArg_eq_some_iff]

theorem decodeBit_eq_ok_iff {op : Bool → Instr} {args : List Nat} {i : Instr} :
    decodeBit op args = .ok i ↔ ∃ v : Bool, args = [v.toNat] ∧ i = op v := by
  rw [decodeBit_eq_oneArg, decodeOneArg_eq_ok_iff bitArg_eq_some_iff]

theorem decodeNoArgs_eq_ok_iff {op i : Instr} {args : List Nat} :
    decodeNoArgs op args = .ok i ↔ args = [] ∧ i = op := by
  cases args <;> simp [decodeNoArgs, eq_comm]

/-- BUF_POKE is accepted exactly with an index 0 to 5 and a byte (R86, R220). -/
theorem decodeBufPoke_eq_ok_iff {args : List Nat} {i : Instr} :
    decodeBufPoke args = .ok i ↔ ∃ (j : Nat) (v : Byte), j ≤ 5 ∧ args = [j, v.toNat] ∧ i = .bufPoke j v := by
  constructor
  · intro h
    match args, h with
    | [j, n], h =>
      by_cases hj : 5 < j
      · simp [decodeBufPoke, hj] at h
      · cases hn : byteArg n with
        | none => simp [decodeBufPoke, hj, hn] at h
        | some v =>
          simp only [decodeBufPoke, hj, hn, if_false, Except.ok.injEq] at h
          exact ⟨j, v, not_lt.mp hj, by rw [byteArg_some hn], h.symm⟩
  · rintro ⟨j, v, hj, rfl, rfl⟩
    simp [decodeBufPoke, not_lt.mpr hj]

/-- A report buffer is its six bytes (R6). -/
theorem buf6_toList (b : Buf6) : b.toList = [b[0], b[1], b[2], b[3], b[4], b[5]] := by
  obtain ⟨⟨l⟩, hl⟩ := b
  match l, hl with
  | [_, _, _, _, _, _], _ => rfl

/-- BUF_SWAP is accepted exactly with the six bytes of a buffer (R222). -/
theorem decodeBufSwap_eq_ok_iff {args : List Nat} {i : Instr} :
    decodeBufSwap args = .ok i ↔ ∃ b : Buf6, args = b.toList.map BitVec.toNat ∧ i = .bufSwap b := by
  constructor
  · intro h
    unfold decodeBufSwap at h
    split at h
    · split at h
      next b0 b1 b2 b3 b4 b5 h0 h1 h2 h3 h4 h5 =>
        refine ⟨#v[b0, b1, b2, b3, b4, b5], ?_, (Except.ok.inj h).symm⟩
        rw [byteArg_some h0, byteArg_some h1, byteArg_some h2, byteArg_some h3, byteArg_some h4, byteArg_some h5]
        rfl
      next => cases h
    · cases h
  · rintro ⟨b, rfl, rfl⟩
    have hb : #v[b[0], b[1], b[2], b[3], b[4], b[5]] = b := Vector.toList_inj.mp (buf6_toList b).symm
    simp [buf6_toList, decodeBufSwap, hb]

/-- A write event is accepted exactly with 1 byte, as WR_ADDR, or with 2 to 8, as WR_DATA (R81, R82). -/
theorem decodeWrite_eq_ok_iff {bytes : List Byte} {i : Instr} :
    decodeWrite bytes = .ok i ↔ (∃ a, bytes = [a] ∧ i = .wrAddr a) ∨
      ∃ a d, bytes = a :: d ∧ 1 ≤ d.length ∧ d.length ≤ 7 ∧ i = .wrData a d := by
  constructor
  · intro h
    rcases decodeWrite_cases bytes with ⟨_, e⟩ | ⟨a, hb, e⟩ | ⟨a, d, hb, h1, h7, e⟩ | ⟨_, _, _, _, e⟩
    · exact nomatch e.symm.trans h
    · exact .inl ⟨a, hb, (Except.ok.inj (e.symm.trans h)).symm⟩
    · exact .inr ⟨a, d, hb, h1, h7, (Except.ok.inj (e.symm.trans h)).symm⟩
    · exact nomatch e.symm.trans h
  · rintro (⟨a, rfl, rfl⟩ | ⟨a, d, rfl, h1, h7, rfl⟩)
    · rfl
    · rw [decodeWrite, if_neg (by omega), if_pos h7]

/-- Eight or more data bytes are WriteTooLong (R82). -/
theorem decodeWrite_tooLong {d : List Byte} (h : 8 ≤ d.length) (a : Byte) :
    decodeWrite (a :: d) = .error .writeTooLong := by
  rw [decodeWrite, if_neg (by omega), if_neg (by omega)]

/-- BUF_POKE above 5 is PokeIndex, also where the value is no byte (R220; log entry 13). -/
theorem decodeBufPoke_pokeIndex {j : Nat} (h : 5 < j) (n : Nat) : decodeBufPoke [j, n] = .error .pokeIndex := if_pos h

/-- RF_GET above 0xFF is AddressRange (R100). -/
theorem decodeRfGet_addressRange {n : Nat} (h : 0xFF < n) : decodeRfGet [n] = .error .addressRange := by
  simp [decodeRfGet, byteArg_eq_none h]

/-- Settles O1: each operation's frame is one its decoder accepts, by the decoder's own equivalence. -/
theorem decodeOfEncodeIsIdentity : Obligations.DecodeOfEncodeIsIdentity := by
  intro st i hwf hsel
  cases i with
  | wrAddr a => rfl
  | wrData a d =>
    simp only [Instr.wellFormed, Bool.and_eq_true, decide_eq_true_eq] at hwf
    obtain ⟨h1, h7⟩ := hwf
    exact decodeWrite_eq_ok_iff.mpr (.inr ⟨a, d, rfl, h1, h7, rfl⟩)
  | rdReport | rdId | rdCal | rdBlock => exact congrArg Except.ok (of_decide_eq_true hsel)
  | rfGet a => exact decodeRfGet_eq_ok_iff.mpr ⟨a, rfl, rfl⟩
  | setInput u =>
    cases u with
    | axis f v => exact decodeSetAxis_eq_ok_iff.mpr ⟨v, rfl, rfl⟩
    | flag f v => exact decodeSetFlag_eq_ok_iff.mpr ⟨v, rfl, rfl⟩
  | bufPoke j v => exact decodeBufPoke_eq_ok_iff.mpr ⟨j, v, of_decide_eq_true hwf, rfl, rfl⟩
  | bufSwap b => exact decodeBufSwap_eq_ok_iff.mpr ⟨b, rfl, rfl⟩
  | regWriteHook r | regStreamHook r => exact decodeBit_eq_ok_iff.mpr ⟨r, rfl, rfl⟩
  | encode | startup => rfl

/-- The selected read's frame is a read event (R83). -/
theorem encode_selectRead (st : Byte) : encode (selectRead st) = .read := by
  rw [selectRead_eq]; split_ifs <;> rfl

/-- A read needs no operand to be well formed (R88). -/
theorem wellFormed_selectRead (st : Byte) : (selectRead st).wellFormed = true := by
  rw [selectRead_eq]; split_ifs <;> rfl

/-- What a call decodes to is encoded as that call, well formed, and no read (R86). -/
theorem encode_of_decodeCall {op : AppOp} {args : List Nat} {i : Instr} (h : decodeCall op args = .ok i) :
    encode i = .call op args ∧ i.wellFormed = true ∧ i.isRead = false := by
  cases op with
  | rfGet => obtain ⟨a, rfl, rfl⟩ := decodeRfGet_eq_ok_iff.mp h; exact ⟨rfl, rfl, rfl⟩
  | rfSet | rfSetRange => exact nomatch h
  | setAxis f => obtain ⟨v, rfl, rfl⟩ := decodeSetAxis_eq_ok_iff.mp h; exact ⟨rfl, rfl, rfl⟩
  | setFlag f => obtain ⟨v, rfl, rfl⟩ := decodeSetFlag_eq_ok_iff.mp h; exact ⟨rfl, rfl, rfl⟩
  | bufPoke => obtain ⟨j, v, hj, rfl, rfl⟩ := decodeBufPoke_eq_ok_iff.mp h; exact ⟨rfl, decide_eq_true hj, rfl⟩
  | bufSwap => obtain ⟨b, rfl, rfl⟩ := decodeBufSwap_eq_ok_iff.mp h; exact ⟨rfl, rfl, rfl⟩
  | regWriteHook | regStreamHook => obtain ⟨r, rfl, rfl⟩ := decodeBit_eq_ok_iff.mp h; exact ⟨rfl, rfl, rfl⟩
  | encode | startup => obtain ⟨rfl, rfl⟩ := decodeNoArgs_eq_ok_iff.mp h; exact ⟨rfl, rfl, rfl⟩

/-- An operation that is no read comes from its frame under every stored `state` (R89). -/
theorem selectable_of_not_isRead {i : Instr} (h : i.isRead = false) (st : Byte) : i.selectable st = true := by
  simp [Instr.selectable, h]

/-- Settles O2: by the kind of frame, each inverted by its decoder's equivalence. -/
theorem encodeOfDecodeIsIdentity : Obligations.EncodeOfDecodeIsIdentity := by
  intro st f i h
  cases f with
  | write bytes =>
    rcases decodeWrite_eq_ok_iff.mp h with ⟨a, rfl, rfl⟩ | ⟨a, d, rfl, h1, h7, rfl⟩
    · exact ⟨rfl, rfl, rfl⟩
    · exact ⟨rfl, by simp [Instr.wellFormed, h1, h7], rfl⟩
  | read =>
    obtain rfl := Except.ok.inj h
    exact ⟨encode_selectRead st, wellFormed_selectRead st, by simp [Instr.selectable]⟩
  | call op args =>
    obtain ⟨henc, hwf, hread⟩ := encode_of_decodeCall h
    exact ⟨henc, hwf, selectable_of_not_isRead hread st⟩

/-- Settles O3: the conditions of R170 exclude each other and their reads are distinct. -/
theorem readSelectionByState : Obligations.ReadSelectionByState := by
  intro st
  rw [selectRead_eq]
  split_ifs with h0 hFA hcal
  · subst h0; decide
  · subst hFA; decide
  · rcases hcal with rfl | rfl <;> decide
  · simp_all

/-- Settles O4: the decoder run on each frame. -/
theorem specFramesDecode : Obligations.SpecFramesDecode :=
  ⟨rfl, rfl, rfl, rfl, rfl, rfl, rfl, rfl, rfl⟩

end Sys2Proof

/-! ## Encoding: the step that a frame is (R82, R140, R170), and the refusals of R243 -/

namespace Sys2Proof.Machine

/-- Unless it is the application's turn, the step takes the oldest pending event (R245, R250). -/
theorem fetch_event {s : State} {e : Event} {es : List Event} (hev : s.events = e :: es)
    (hturn : s.turns.head? ≠ some .app) :
    fetch s = some (e.frame, { s with events := es, turns := s.turns.tail, collab := e.collab }) := by
  simp [fetch, appTurn, takeEvent, hev, hturn]

/-- A write event is performed by its data count (R82, R140). -/
theorem perform_write (a : Byte) (d : List Byte) (t : State) :
    perform (.write (a :: d)) t = if d.length = 0 then exec (.wrAddr a) t
      else if d.length ≤ 7 then exec (.wrData a d) t else refuseWith .writeTooLong t := by
  split_ifs with h0 h7
  · obtain rfl := List.length_eq_zero_iff.mp h0
    rfl
  · exact perform_of_decode_ok (decodeWrite_eq_ok_iff.mpr (.inr ⟨a, d, rfl, Nat.pos_of_ne_zero h0, h7, rfl⟩))
  · exact perform_of_decode_error (decodeWrite_tooLong (not_le.mp h7) a)

/-- A read event is performed as the read the stored `state` selects (R83, R170). -/
theorem perform_read (t : State) : perform .read t = exec (selectRead t.state) t := rfl

/-- Settles O5: the event is the frame taken, and it is performed by its data count. -/
theorem writeEventIsOneStepByDataCount : Obligations.WriteEventIsOneStepByDataCount := by
  intro s a d c es _ hev hturn
  exact (step_of_fetch_some (fetch_event hev hturn)).trans (perform_write a d _)

/-- Settles O6: the event is performed as the selected read, whose effect starts with its response. -/
theorem readEventIsOneStepByState : Obligations.ReadEventIsOneStepByState := by
  intro s c es hs hev hturn
  have hstep := (step_of_fetch_some (fetch_event hev hturn)).trans (perform_read _)
  refine ⟨?_, ?_⟩
  · rw [hstep, selectRead_eq]
    split_ifs <;> rfl
  · obtain ⟨u, heff⟩ := exists_hasEffect_selectRead
      (s := { s with events := es, turns := s.turns.tail, collab := c }) hs
    obtain ⟨pt, start, rest, htrace, -⟩ := readEffect_trace (selectRead_isRead s.state) heff
    exact ⟨u, _, rest, hstep.trans heff.exec_eq, htrace⟩

/-- After STARTUP a rejected frame is refused by the decoder's name for it and has no other effect (R243). -/
theorem perform_refused {s : State} (hs : s.started = true) {f : Frame} {r : RefuseReason}
    (h : decode s.state f = .error r) : perform f s = .next (s.refuse r) :=
  (perform_of_decode_error h).trans (refuseWith_started hs r)

/-- Eight or more data bytes are no WR_DATA (R82, R140). -/
theorem exec_wrData_tooLong {d : List Byte} (h : 8 ≤ d.length) (a : Byte) (s : State) :
    exec (.wrData a d) s = refuseWith .writeTooLong s :=
  (if_neg (by omega)).trans (if_pos h)

/-- A second STARTUP is an application write to RF (R102, R249; log entry 14). -/
theorem exec_startup_started {s : State} (hs : s.started = true) : exec .startup s = refuseWith .appRegisterWrite s :=
  if_pos hs

/-- Settles O45: the decoder rejects each of these frames by its name, and the two operations refuse themselves. -/
theorem outsideTheContractIsRefused : Obligations.OutsideTheContractIsRefused := by
  intro s hs
  refine ⟨fun a d h => ⟨?_, ?_⟩, fun i v h => ?_, fun args => ?_, fun args => ?_, ?_, fun n h => ?_⟩
  · exact perform_refused hs (decodeWrite_tooLong h a)
  · exact (exec_wrData_tooLong h a s).trans (refuseWith_started hs _)
  · exact perform_refused hs (decodeBufPoke_pokeIndex h v)
  · exact perform_refused hs rfl
  · exact perform_refused hs rfl
  · exact (exec_startup_started hs).trans (refuseWith_started hs _)
  · exact perform_refused hs (decodeRfGet_addressRange h)

end Sys2Proof.Machine

/-! ## Register file: the application's read, a run of writes, and the calibration block (R100, R103, R104) -/

namespace Sys2Proof.Machine

/-- Settles O34: a run that fits puts its bytes in its own cells alone, and any other is refused. -/
theorem setRangeWritesOrRefuses : Obligations.SetRangeWritesOrRefuses := by
  intro a bytes m _
  rcases Memory.setRange_cases (a := a) (vs := bytes) (m := m) with ⟨hfits, hok⟩ | ⟨hpast, herr⟩
  · refine ⟨fun h => absurd h (not_lt.mpr hfits), fun _ => ⟨_, hok, fun x => ?_⟩⟩
    rw [Memory.read_writeRange hfits m x 0xFF]
    by_cases hin : a.toNat ≤ x.toNat ∧ x.toNat - a.toNat < bytes.length
    · rw [dif_pos hin, if_pos ⟨hin.1, by omega⟩, List.getD_eq_getElem _ _ hin.2]
    · rw [dif_neg hin, if_neg (by omega)]
  · exact ⟨fun _ => herr, fun h => absurd h (not_le.mpr hpast)⟩

/-- Adding bytes one by one reduces after each addition, and gives the same as reducing the whole sum (R8, R104). -/
theorem foldl_add_eq_ofNat_sum (l : List Byte) (b : Byte) :
    l.foldl (· + ·) b = b + BitVec.ofNat 8 (l.map BitVec.toNat).sum := by
  induction l generalizing b with
  | nil => simp
  | cons v l ih =>
    calc (v :: l).foldl (· + ·) b
        = b + v + BitVec.ofNat 8 (l.map BitVec.toNat).sum := ih (b + v)
      _ = b + BitVec.ofNat 8 ((v :: l).map BitVec.toNat).sum := by
        rw [List.map_cons, List.sum_cons, BitVec.ofNat_add, BitVec.ofNat_toNat, BitVec.setWidth_eq, BitVec.add_assoc]

/-- The payload's byte sum, reduced once at the end (R104). -/
theorem calSum_eq_ofNat_mod (p : CalPayload) : calSum p = BitVec.ofNat 8 ((p.toList.map BitVec.toNat).sum % 256) := by
  apply BitVec.eq_of_toNat_eq
  simp [calSum]

/-- The payload's byte sum, reduced after each addition (R104). -/
theorem calSum_eq_foldl (p : CalPayload) : calSum p = p.toList.foldl (· + ·) 0x00 := by
  rw [foldl_add_eq_ofNat_sum, zero_add, calSum]

/-- Memories that read alike have the same slices. -/
theorem Memory.readRange_congr {m m' : Memory} (h : ∀ x : Byte, m.read x = m'.read x) (a : Byte) (n : Nat) :
    m.readRange a n = m'.readRange a n := by
  induction n generalizing a with
  | zero => rfl
  | succ n ih => rw [Memory.readRange, Memory.readRange, h, ih]

/-- After STARTUP every slice is the one of the reset state (R41, R270). -/
theorem Memory.readRange_startup {m m' : Memory} (h : Memory.startup m = .ok m') (a : Byte) (n : Nat) :
    m'.readRange a n = State.reset.rf.readRange a n :=
  Memory.readRange_congr (fun x => (Memory.read_startup h x).trans (reset_read x).symm) a n

/-- Settles O35: both forms of the sum are `calSum`, and STARTUP's two copies are those of the reset state (O43). -/
theorem calBlockChecksums : Obligations.CalBlockChecksums := by
  refine ⟨fun p => ⟨?_, ?_⟩, fun s hs => ?_, by decide, by decide, by decide⟩
  · rw [← calSum_eq_ofNat_mod, calBlock]
  · rw [← calSum_eq_ofNat_mod, calSum_eq_foldl]
  · obtain ⟨m, hm, hexec⟩ := exec_startup_before hs
    obtain ⟨-, hfirst, hsecond, -⟩ := resetRegisterFile
    exact ⟨_, hexec, (Memory.readRange_startup hm _ _).trans hfirst, (Memory.readRange_startup hm _ _).trans hsecond⟩

/-- RF_GET after STARTUP answers the stored byte and writes nothing (R100). -/
theorem exec_rfGet {s : State} (hs : s.started = true) (a : Byte) :
    exec (.rfGet a) s = .next (s.emit (.rfGetResult (s.rf.read a))) := whenStarted_started hs _

/-- Settles O33: RF_GET's answer is the stored byte, and its decoder rejects an address above 0xFF. -/
theorem rfGetReturnsStoredByte : Obligations.RfGetReturnsStoredByte := by
  refine ⟨fun a s hs => exec_rfGet hs a, fun n s _ hn => ?_, ?_⟩
  · exact perform_of_decode_error (decodeRfGet_addressRange hn)
  · have hcell : State.reset.rf.read 0x10 = 0xFF := (reset_read 0x10).trans (resetByte_fill (.inl (by decide)))
    rw [exec_rfGet rfl, hcell]
    rfl

end Sys2Proof.Machine

/-! ## Cipher: the two transforms, and a response under them (R120-R125, R171) -/

namespace Sys2Proof.Machine

/-- ENCRYPT undoes DECRYPT: the subtraction takes the addition back, then the XOR takes the XOR back (R125). -/
theorem encrypt_decrypt (fb sb : Table) (v x : Byte) : encrypt fb sb (decrypt fb sb v x) x = v := by
  rw [encrypt, decrypt, BitVec.add_sub_cancel, BitVec.xor_assoc, BitVec.xor_self, BitVec.xor_zero]

/-- DECRYPT undoes ENCRYPT: the XOR takes the XOR back, then the addition takes the subtraction back (R125). -/
theorem decrypt_encrypt (fb sb : Table) (v x : Byte) : decrypt fb sb (encrypt fb sb v x) x = v := by
  rw [encrypt, decrypt, BitVec.xor_assoc, BitVec.xor_self, BitVec.xor_zero, BitVec.sub_add_cancel]

/-- Settles O20: each composition cancels operation by operation. -/
theorem cipherTransformsAreInverse : Obligations.CipherTransformsAreInverse :=
  fun fb sb v x => ⟨encrypt_decrypt fb sb v x, decrypt_encrypt fb sb v x⟩

/-- A table's entry for address 0x00 is its first (R132). -/
theorem cipherEntry_zero (t : Table) : cipherEntry t 0x00 = t[0] := rfl

/-- Addresses 8 apart use the same entry: 8 divides 256, so a wrap does not move the index (R132). -/
theorem cipherEntry_add_eight (t : Table) (x : Byte) : cipherEntry t (x + 8) = cipherEntry t x := by
  have hmod : (x + 8).toNat % 8 = x.toNat % 8 := by bv_omega
  simp only [cipherEntry, hmod]

/-- Settles O18: DECRYPT has a left inverse (O20), and reads its entries by address mod 8. -/
theorem decryptIsXorThenAdd : Obligations.DecryptIsXorThenAdd := by
  intro fb sb x
  refine ⟨fun c => rfl, fun c c' h => ?_, fun c => ?_, fun hfb hsb => ?_⟩
  · calc c = encrypt fb sb (decrypt fb sb c x) x := (encrypt_decrypt fb sb c x).symm
      _ = encrypt fb sb (decrypt fb sb c' x) x := by rw [h]
      _ = c' := encrypt_decrypt fb sb c' x
  · simp only [decrypt, cipherEntry_add_eight]
  · rw [decrypt, cipherEntry_zero, cipherEntry_zero, hfb, hsb]
    rfl

/-- While the cipher is active a response is encrypted (R171). -/
theorem xform_active {s : State} (h : cipherActive s = true) (pt : List Byte) (start : Byte) :
    xform s pt start = encryptFrom s.fb s.sb start pt := if_pos h

/-- Element `i` of an encrypted response is encrypted with its own address (R124). -/
theorem getElem?_encryptFrom (fb sb : Table) (start : Byte) {pt : List Byte} {i : Nat} (h : i < pt.length) :
    (encryptFrom fb sb start pt)[i]? = some (encrypt fb sb pt[i] (writeCursor start i)) := by
  induction pt generalizing start i with
  | nil => exact absurd h (Nat.not_lt_zero i)
  | cons p ps ih =>
    cases i with
    | zero => rw [writeCursor_zero]; rfl
    | succ i => rw [writeCursor_succ]; exact ih (start + 1) (Nat.lt_of_succ_lt_succ h)

/-- Settles O19: the formula is the definition's, and an active XFORM is ENCRYPT element by element. -/
theorem encryptIsSubtractThenXor : Obligations.EncryptIsSubtractThenXor := by
  refine ⟨fun fb sb p x => rfl, fun fb sb hfb hsb => ?_, fun s pt start hreq hready => ⟨xform_length s pt start, ?_⟩⟩
  · rw [encrypt, cipherEntry_zero, cipherEntry_zero, hfb, hsb]
    rfl
  · intro i hi
    rw [xform_active ((cipherActive_iff s).mpr ⟨hreq, hready⟩)]
    exact getElem?_encryptFrom s.fb s.sb start hi

/-- A byte that is no raw 0x55 at 0xF0 passes the force-disable test without effect (R128). -/
theorem forceDisable_of_not {cur raw : Byte} (h : ¬ ForcesDisable cur raw) (s : State) :
    s.forceDisable cur raw = s := by
  have hready : readyAfterTest cur raw s.ready = s.ready :=
    Bool.eq_iff_iff.mpr (readyAfterTest_iff.trans (and_iff_left h))
  rw [State.forceDisable, hready]

/-- A raw 0x55 at 0xF0 clears `ready` (R128). -/
theorem forceDisable_clears_ready {cur raw : Byte} (h : ForcesDisable cur raw) (s : State) :
    (s.forceDisable cur raw).ready = false :=
  Bool.eq_false_iff.mpr fun hready => (readyAfterTest_iff.mp hready).2 h

/-- While the cipher is active a data byte is decrypted (R123). -/
theorem storedValue_active {s : State} (h : cipherActive s = true) (cur raw : Byte) :
    storedValue s cur raw = decrypt s.fb s.sb raw cur := if_pos h

/-- While the cipher is inactive a data byte is stored as received (R121). -/
theorem storedValue_inactive {s : State} (h : cipherActive s = false) (cur raw : Byte) :
    storedValue s cur raw = raw := if_neg (Bool.eq_false_iff.mp h)

/-- Where the cipher is inactive before the force-disable test, it is inactive after it: the byte is stored as received
(R121, R128). -/
theorem storedValue_forceDisable_inactive {s : State} (h : cipherActive s = false) (cur raw : Byte) :
    storedValue (s.forceDisable cur raw) cur raw = raw := by
  by_cases hf : ForcesDisable cur raw
  · exact storedValue_idle (forceDisable_clears_ready hf s) cur raw
  · rw [forceDisable_of_not hf, storedValue_inactive h]

/-- What one data byte leaves in its own cell (R143). -/
theorem storeByte_read_same (cur raw : Byte) (s : State) :
    (storeByte cur raw s).rf.read cur = storedValue (s.forceDisable cur raw) cur raw := by
  rw [storeByte_rf, Memory.read_write_same]

/-- Settles O21: XFORM and the one stored byte, both with the cipher inactive. -/
theorem inactiveCipherPassesThrough : Obligations.InactiveCipherPassesThrough := by
  intro s hoff
  have hinactive : cipherActive s = false := by
    rcases hoff with hreq | hready
    · exact Bool.eq_false_iff.mpr fun hact => hreq ((cipherActive_iff s).mp hact).1
    · exact cipherActive_idle hready
  refine ⟨xform_inactive hinactive, fun a d hs => ⟨_, exec_wrData hs a (d := [d]) (by simp) (by simp), ?_⟩⟩
  rw [notifyWrite_eq]
  exact (storeByte_read_same a d s).trans (storedValue_forceDisable_inactive hinactive a d)

/-- Away from 0xF0 and 0x4F a data byte under the active cipher is decrypted into its cell and does no more
(R123, R143). -/
theorem storeByte_of_cipherActive {s : State} (hact : cipherActive s = true) {a : Byte} (hF0 : a ≠ 0xF0)
    (h4F : a ≠ 0x4F) (c : Byte) : storeByte a c s = s.writeCell a (decrypt s.fb s.sb c a) := by
  have hno : ¬ ForcesDisable a c := fun h => hF0 h.1
  rw [storeByte_of_ne h4F, forceDisable_of_not hno, storedValue_active hact]

/-- A write to a cell other than 0xF0 does not change whether the cipher is active (R120). -/
theorem cipherActive_writeCell {a : Byte} (h : a ≠ 0xF0) (v : Byte) (s : State) :
    cipherActive (s.writeCell a v) = cipherActive s := by
  have hcell : (s.rf.write a v).read cipherControl = s.rf.read cipherControl := Memory.read_write_ne s.rf (Ne.symm h) v
  rw [cipherActive, State.writeCell_rf, hcell, State.writeCell_ready, cipherActive]

/-- The first read of a generic register returns the slice at the register itself (R177). -/
theorem exec_rdBlock_first {s : State} (hs : s.started = true) (hsel : selectRead s.state = .rdBlock)
    (hlast : s.lastState ≠ some s.state) :
    exec .rdBlock s =
      .next ((s.setCursor (some s.state, 0x00)).respond (s.rf.readRange s.state 8) s.state) := by
  have hcursor : blockCursor s.state s.lastState s.blockOffset = (some s.state, 0x00) := if_neg hlast
  have hstart : sliceStart s.state 0x00 = s.state := BitVec.add_zero s.state
  have heff : HasEffect .rdBlock s _ := ⟨hs, hsel, rfl⟩
  rw [heff.exec_eq, hcursor, hstart]

/-- A sequence of operations goes on in the state its first one answers (R69). -/
theorem execMany_cons {i : Instr} {s t : State} (h : exec i s = .next t) (is : List Instr) :
    execMany (i :: is) s = execMany is t := by rw [execMany, h]

/-- The wire's first byte of a slice under the active cipher, where the first cell holds a decrypted byte, is that byte
before decryption (R125). -/
theorem xform_readRange_decrypted {s : State} (hact : cipherActive s = true) {a c : Byte}
    (hcell : s.rf.read a = decrypt s.fb s.sb c a) (n : Nat) :
    xform s (s.rf.readRange a (n + 1)) a = c :: encryptFrom s.fb s.sb (a + 1) (s.rf.readRange (a + 1) n) := by
  rw [xform_active hact, Memory.readRange, encryptFrom, hcell, encrypt_decrypt]

/-- A data byte written through the active cipher, away from 0xF0 and 0x4F: its cell holds it decrypted, and neither the
cipher nor the read cursor has moved (R123, R143). -/
theorem exec_wrData_of_cipherActive {s : State} (hs : s.started = true) (hact : cipherActive s = true) {a : Byte}
    (hF0 : a ≠ 0xF0) (h4F : a ≠ 0x4F) (c : Byte) :
    ∃ u, exec (.wrData a [c]) s = .next u ∧ u.rf.read a = decrypt u.fb u.sb c a ∧ cipherActive u = true ∧
      u.started = true ∧ u.lastState = s.lastState := by
  have hstored : storeBytes a [c] s = s.writeCell a (decrypt s.fb s.sb c a) := storeByte_of_cipherActive hact hF0 h4F c
  refine ⟨_, exec_wrData hs a (by simp) (by simp), ?_⟩
  rw [notifyWrite_eq, hstored]
  exact ⟨Memory.read_write_same _ _ _, (cipherActive_writeCell hF0 _ s).trans hact, hs, rfl⟩

/-- Addressing a generic register and reading it, with the last read elsewhere: the slice at that register
(R141, R177). -/
theorem execMany_wrAddr_rdBlock {s : State} (hs : s.started = true) {a : Byte} (hsel : selectRead a = .rdBlock)
    (hlast : s.lastState ≠ some a) :
    execMany [.wrAddr a, .rdBlock] s =
      .next ((({ s with state := a } : State).setCursor (some a, 0x00)).respond (s.rf.readRange a 8) a) := by
  have haddr : HasEffect (.wrAddr a) s _ := ⟨hs, rfl⟩
  have hread := exec_rdBlock_first (s := { s with state := a }) hs hsel hlast
  exact (execMany_cons haddr.exec_eq _).trans (execMany_cons hread _)

/-- Settles O22: the byte is decrypted into its cell, the cipher stays active, and the read encrypts it back. -/
theorem wireByteReadsBackUnderCipher : Obligations.WireByteReadsBackUnderCipher := by
  intro s a c hs hact hsel hF0 h4F hlast
  obtain ⟨u, hwrite, hcell, huact, hus, hulast⟩ := exec_wrData_of_cipherActive hs hact hF0 h4F c
  have hread := execMany_wrAddr_rdBlock hus hsel (hulast ▸ hlast)
  refine ⟨_, encryptFrom u.fb u.sb (a + 1) (u.rf.readRange (a + 1) 7), (execMany_cons hwrite _).trans hread, ?_,
    ((cipherActive_iff u).mp huact).2⟩
  have hwire := xform_readRange_decrypted huact hcell 7
  rw [State.respond_trace, List.getLast?_concat]
  exact congrArg (some ∘ Output.response) hwire

end Sys2Proof.Machine

/-! ## Cipher: what each byte of a data write leaves behind (R126, R128, R131, R142-R145) -/

namespace Sys2Proof.Machine

/-- The bytes of an event before its byte `n`. -/
theorem someByte_take {p : Byte → Byte → Prop} {a : Byte} {d : List Byte} {n : Nat} :
    SomeByte p a (d.take n) ↔ ∃ j, j < n ∧ ∃ h : j < d.length, p (writeCursor a j) d[j] := by
  simp only [SomeByte, List.length_take, List.getElem_take, lt_inf_iff]
  exact ⟨fun ⟨j, h, hp⟩ => ⟨j, h.1, h.2, hp⟩, fun ⟨j, h1, h2, hp⟩ => ⟨j, ⟨h1, h2⟩, hp⟩⟩

theorem writeCursor_add (a : Byte) (n k : Nat) : writeCursor (writeCursor a n) k = writeCursor a (n + k) := by
  unfold writeCursor
  bv_omega

/-- The bytes of an event from its byte `n` on. -/
theorem someByte_drop {p : Byte → Byte → Prop} {a : Byte} {d : List Byte} {n : Nat} :
    SomeByte p (writeCursor a n) (d.drop n) ↔ ∃ j, n ≤ j ∧ ∃ h : j < d.length, p (writeCursor a j) d[j] := by
  constructor
  · rintro ⟨k, hk, hp⟩
    rw [writeCursor_add, List.getElem_drop] at hp
    exact ⟨n + k, Nat.le_add_right n k, _, hp⟩
  · rintro ⟨j, hnj, hj, hp⟩
    obtain ⟨k, rfl⟩ := Nat.exists_eq_add_of_le hnj
    refine ⟨k, by rw [List.length_drop]; omega, ?_⟩
    rw [writeCursor_add, List.getElem_drop]
    exact hp

/-- A data write as the bytes before byte `i`, byte `i`, and the bytes after it (R142). -/
theorem storeBytes_split (a : Byte) {d : List Byte} {i : Nat} (h : i < d.length) (s : State) :
    storeBytes a d s = storeBytes (writeCursor a (i + 1)) (d.drop (i + 1))
      (storeByte (writeCursor a i) d[i] (storeBytes a (d.take i) s)) := by
  have hlen : (d.take i).length = i := List.length_take_of_le h.le
  have hnext : writeCursor a i + 1 = writeCursor a (i + 1) := writeCursor_add a i 1
  calc storeBytes a d s
      = storeBytes a (d.take i ++ d[i] :: d.drop (i + 1)) s := by rw [List.getElem_cons_drop, List.take_append_drop]
    _ = storeBytes (writeCursor a i) (d[i] :: d.drop (i + 1)) (storeBytes a (d.take i) s) := by
      rw [storeBytes_append, hlen]
    _ = _ := by rw [storeBytes, hnext]

/-- No two of an event's at most seven bytes share a cell: byte `i` is stored once, with the cipher of the moment
(R142, R143). -/
theorem storeBytes_read_at (a : Byte) {d : List Byte} (h7 : d.length ≤ 7) {i : Nat} (h : i < d.length) (s : State) :
    (storeBytes a d s).rf.read (writeCursor a i) =
      storedValue ((storeBytes a (d.take i) s).forceDisable (writeCursor a i) d[i]) (writeCursor a i) d[i] := by
  have hlater : ¬ SomeByte (StoredAt (writeCursor a i)) (writeCursor a (i + 1)) (d.drop (i + 1)) := by
    rw [someByte_drop]
    rintro ⟨j, hij, hj, hcur⟩
    simp only [StoredAt, writeCursor] at hcur
    bv_omega
  rw [storeBytes_split a h, storeBytes_read_of_not_stored hlater, storeByte_read_same]

/-- Settles O11: each cell keeps its byte's stored value, by the three outcomes of the two tests (R144). -/
theorem wrDataStoresEachByte : Obligations.WrDataStoresEachByte := by
  intro a d s hs h1 h7
  refine ⟨_, exec_wrData hs a h1 h7, fun i hi => ?_⟩
  rw [notifyWrite_eq]
  refine (storeBytes_read_at a h7 hi s).trans ?_
  dsimp only
  split_ifs with hforce hact
  · exact (storedValue_idle (forceDisable_clears_ready hforce _) _ _).trans hforce.2
  · rw [forceDisable_of_not (cur := writeCursor a i) hforce]
    exact storedValue_active ((cipherActive_iff _).mpr hact) _ _
  · rw [forceDisable_of_not (cur := writeCursor a i) hforce]
    exact storedValue_inactive (Bool.eq_false_iff.mpr (mt (cipherActive_iff _).mp hact)) _ _

/-- Settles O16: byte `i` clears `ready`, which nothing else in the event can set, so every later byte is stored raw. -/
theorem forceDisableStoresRaw : Obligations.ForceDisableStoresRaw := by
  intro a d s i hi hs h7 hcur hraw
  have hforce : ForcesDisable (writeCursor a i) d[i] := ⟨hcur, hraw⟩
  have hmiss : ¬ SomeByte (StoredAt 0x4F) a d := by
    rintro ⟨j, hj, hj4F⟩
    simp only [StoredAt, writeCursor] at hj4F hcur
    bv_omega
  have hclear : ∀ j, i < j → (storeBytes a (d.take j) s).ready = false := fun j hij => by
    have hmiss' : ¬ SomeByte (StoredAt 0x4F) a (d.take j) :=
      fun h => hmiss (let ⟨k, _, hk, e⟩ := someByte_take.mp h; ⟨k, hk, e⟩)
    exact Bool.eq_false_iff.mpr fun hready =>
      ((storeBytes_ready_of_not_4F hmiss' s).mp hready).2 (someByte_take.mpr ⟨i, hij, hi, hforce⟩)
  have hready : (storeBytes a d s).ready = false := by simpa using hclear d.length hi
  refine ⟨_, exec_wrData hs a (Nat.one_le_of_lt hi) h7, ?_⟩
  rw [notifyWrite_eq]
  refine ⟨hready, ?_, fun j hj hij => ?_, storeBytes_schedule_of_not_4F hmiss s⟩
  · rw [← hcur]
    have hstored := storedValue_idle (forceDisable_clears_ready hforce (storeBytes a (d.take i) s))
    exact (storeBytes_read_at a h7 hi s).trans ((hstored _ _).trans hraw)
  · exact (storeBytes_read_at a h7 hj s).trans (storedValue_forceDisable_idle (hclear j hij) _ _)

/-- The seed and the key are the cells 0x40 to 0x4F, reversed: memories that agree there have the same (R26). -/
theorem reversed_congr {m m' : Memory} (h : ∀ x : Byte, 0x40 ≤ x.toNat → x.toNat ≤ 0x4F → m.read x = m'.read x) :
    reversedSeed m = reversedSeed m' ∧ reversedKey m = reversedKey m' := by
  constructor
  · simp [reversedSeed, h]
  · simp [reversedKey, h]

/-- The seed array lists its slice backwards (R26). -/
theorem reversedSeed_toList (m : Memory) : (reversedSeed m).toList = (m.readRange 0x40 10).reverse := rfl

/-- The key array lists its slice backwards (R26). -/
theorem reversedKey_toList (m : Memory) : (reversedKey m).toList = (m.readRange 0x4A 6).reverse := rfl

/-- Settles O17: KEY_SETUP reads cells 0x40 to 0x4F only, so a write at 0xF0 commutes with it. -/
theorem keySetupIgnoresControlCell : Obligations.KeySetupIgnoresControlCell := by
  intro s v
  refine ⟨rfl, (cipherActive_iff s.keySetup).trans (and_iff_left rfl), ?_⟩
  obtain ⟨hseed, hkey⟩ := reversed_congr (m := s.rf.write 0xF0 v) (m' := s.rf) fun x _ hx =>
    Memory.read_write_ne s.rf (fun e => by subst e; exact absurd hx (by decide)) v
  simp only [State.keySetup, State.writeCell, hseed, hkey]

/-- The tables and arrays are KEY_SETUP's for the seed and key that RF holds, and `ready` is 1 (R126, R127). -/
def State.ScheduleCurrent (s : State) : Prop :=
  s.seedArr = reversedSeed s.rf ∧ s.keyArr = reversedKey s.rf ∧
    (s.fb, s.sb) = Config.keySchedule s.seedArr s.keyArr ∧ s.ready = true

theorem scheduleCurrent_keySetup (s : State) : s.keySetup.ScheduleCurrent := ⟨rfl, rfl, rfl, rfl⟩

/-- Bytes stored outside the seed, the key and 0xF0 keep the schedule current (R130, R145). -/
theorem scheduleCurrent_storeBytes {s : State} (h : s.ScheduleCurrent) {cur : Byte} {d : List Byte}
    (hkeys : ∀ x : Byte, 0x40 ≤ x.toNat → x.toNat ≤ 0x4F → ¬ SomeByte (StoredAt x) cur d)
    (hforce : ¬ SomeByte ForcesDisable cur d) : (storeBytes cur d s).ScheduleCurrent := by
  obtain ⟨hseed, hkey, htables, hready⟩ := h
  have hmiss : ¬ SomeByte (StoredAt 0x4F) cur d := hkeys 0x4F (by decide) (by decide)
  obtain ⟨hfb', hsb', hseed', hkey'⟩ := storeBytes_schedule_of_not_4F hmiss s
  obtain ⟨hrs, hrk⟩ := reversed_congr fun x hlo hhi => storeBytes_read_of_not_stored (hkeys x hlo hhi) s
  refine ⟨?_, ?_, ?_, (storeBytes_ready_of_not_4F hmiss s).mpr ⟨hready, hforce⟩⟩
  · rw [hseed', hseed, hrs]
  · rw [hkey', hkey, hrk]
  · rw [hfb', hsb', hseed', hkey', htables]

/-- The byte stored at 0x4F sets up the schedule, and the event's later bytes reach only 0x50 to 0x55 (R126, R145). -/
theorem scheduleCurrent_of_stored_4F {a : Byte} {d : List Byte} (h7 : d.length ≤ 7) {i : Nat} (hi : i < d.length)
    (hcur : writeCursor a i = 0x4F) (s : State) : (storeBytes a d s).ScheduleCurrent := by
  rw [storeBytes_split a hi, hcur, storeByte_at_4F]
  refine scheduleCurrent_storeBytes (scheduleCurrent_keySetup _) (fun x hlo hhi => ?_) ?_
  · rw [someByte_drop]
    rintro ⟨j, hij, hj, hx⟩
    simp only [StoredAt, writeCursor] at hx hcur
    bv_omega
  · rw [someByte_drop]
    rintro ⟨j, hij, hj, hF0, -⟩
    simp only [cipherControl, writeCursor] at hF0 hcur
    bv_omega

/-- Settles O14: after the event the schedule is current, its arrays read as reversed slices. -/
theorem keySetupFiresWhen4FIsStored : Obligations.KeySetupFiresWhen4FIsStored := by
  rintro a d s hs h1 h7 ⟨i, hi, hcur⟩
  obtain ⟨hseed, hkey, htables, hready⟩ := scheduleCurrent_of_stored_4F h7 hi hcur s
  refine ⟨_, exec_wrData hs a h1 h7, ?_⟩
  rw [notifyWrite_eq]
  exact ⟨by rw [hseed, reversedSeed_toList], by rw [hkey, reversedKey_toList], htables, hready⟩

end Sys2Proof.Machine

/-! ## Write dispatch: an address event, and the outputs of a data write (R141, R146, R147) -/

namespace Sys2Proof.Machine

/-- Settles O10: that is the effect of an address event. -/
theorem wrAddrWritesStateOnly : Obligations.WrAddrWritesStateOnly := fun a _ hs =>
  HasEffect.exec_eq (i := .wrAddr a) ⟨hs, rfl⟩

/-- A data write's stores add no output, set no mark and keep the registration and the collaborator: what it leaves in
the trace and the mark is its one notification's (R143, R146, R147). -/
theorem storeBytes_notifyWrite_outputs (a : Byte) (d : List Byte) (n : Nat) (s : State) :
    ((storeBytes a d s).notifyWrite a n).trace =
        s.trace ++ (if s.writeHookReg then .notify a n :: callBackOutputs s.collab else []) ∧
      ((storeBytes a d s).notifyWrite a n).refused = (s.refused || (s.writeHookReg && s.collab.callsBack)) := by
  rw [notifyWrite_eq, storeBytes_trace, storeBytes_refused, storeBytes_writeHookReg, storeBytes_collab]
  exact ⟨rfl, rfl⟩

/-- Settles O13: the event's outputs are those of its effect, with N its own count. -/
theorem wrDataNotification : Obligations.WrDataNotification := fun a d s hs h1 h7 =>
  ⟨_, exec_wrData hs a h1 h7, storeBytes_notifyWrite_outputs a d d.length s⟩

end Sys2Proof.Machine

/-! ## Read dispatch: the slices that calibration and generic reads return (R174-R180, R277) -/

namespace Sys2Proof.Machine

/-- The effect that RD_CAL and RD_BLOCK share, for their own new read cursor: the slice of 8 at the cursor's offset from
the register (R85, R176, R177). -/
def State.returnSlice (c : Option Byte × Byte) (s : State) : State :=
  (s.setCursor c).respond (s.rf.readRange (sliceStart s.state c.2) 8) (sliceStart s.state c.2)

/-- All that returning a slice does to the block (R171, R178). -/
theorem returnSlice_eq (last : Option Byte) (off : Byte) (s : State) :
    s.returnSlice (last, off) =
      { s with
        lastState := last
        blockOffset := off
        trace := s.trace ++ [.response (xform s (s.rf.readRange (s.state + off) 8) (s.state + off))] } := rfl

/-- A slice at offset 0 starts at the register itself. -/
theorem returnSlice_zero (last : Option Byte) (s : State) :
    s.returnSlice (last, 0x00) =
      { s with
        lastState := last
        blockOffset := 0x00
        trace := s.trace ++ [.response (xform s (s.rf.readRange s.state 8) s.state)] } := by
  have hstart : s.state + 0x00 = s.state := BitVec.add_zero s.state
  rw [returnSlice_eq, hstart]

/-- A calibration read that is no immediate repeat returns the half at the register (R176). -/
theorem exec_rdCal_first {s : State} (hs : s.started = true) (hsel : selectRead s.state = .rdCal)
    (hlast : s.lastState ≠ some s.state) : exec .rdCal s = .next (s.returnSlice (some s.state, 0x00)) := by
  have hcursor : calCursor s.state s.lastState = (some s.state, 0x00) := if_neg hlast
  rw [← hcursor]
  exact HasEffect.exec_eq (i := .rdCal) ⟨hs, hsel, rfl⟩

/-- An immediate repeat of a calibration read returns the half 8 above, and leaves the repeat marker (R176, R178). -/
theorem exec_rdCal_repeat {s : State} (hs : s.started = true) (hsel : selectRead s.state = .rdCal)
    (hlast : s.lastState = some s.state) : exec .rdCal s = .next (s.returnSlice (none, 0x08)) := by
  have hcursor : calCursor s.state s.lastState = (none, 0x08) := if_pos hlast
  rw [← hcursor]
  exact HasEffect.exec_eq (i := .rdCal) ⟨hs, hsel, rfl⟩

/-- An immediate repeat of a generic read returns the slice 8 above the last one (R177); `exec_rdBlock_first` is the
other case. -/
theorem exec_rdBlock_repeat {s : State} (hs : s.started = true) (hsel : selectRead s.state = .rdBlock)
    (hlast : s.lastState = some s.state) :
    exec .rdBlock s = .next (s.returnSlice (some s.state, s.blockOffset + 8)) := by
  have hcursor : blockCursor s.state s.lastState s.blockOffset = (some s.state, s.blockOffset + 8) := if_pos hlast
  rw [← hcursor]
  exact HasEffect.exec_eq (i := .rdBlock) ⟨hs, hsel, rfl⟩

/-- The addresses of the two calibration copies select RD_CAL (R83). -/
theorem selectRead_cal {st : Byte} (h : st = 0x20 ∨ st = 0x30) : selectRead st = .rdCal := by
  obtain ⟨-, -, hcal, -⟩ := readSelectionByState st
  exact hcal.mpr h

/-- Settles O26: RD_ID's effect; the slice of six from 0xFA is the six cells. -/
theorem rdIdResult : Obligations.RdIdResult := by
  intro s hs hst
  have hsel : selectRead s.state = .rdId := by rw [hst]; rfl
  exact HasEffect.exec_eq (i := .rdId) ⟨hs, hsel, rfl⟩

/-- Settles O27: by whether the request repeats the last read. -/
theorem rdCalResult : Obligations.RdCalResult := by
  intro s hs hst
  have hsel := selectRead_cal hst
  split_ifs with hlast
  · rw [exec_rdCal_repeat hs hsel hlast, returnSlice_eq]
  · rw [exec_rdCal_first hs hsel hlast, returnSlice_zero]

/-- Settles O28: by whether the request repeats the last read; a repeat finds the register in the cursor and leaves it
there. -/
theorem rdBlockResult : Obligations.RdBlockResult := by
  intro s hs h00 hFA h20 h30
  obtain ⟨-, -, -, hblock⟩ := readSelectionByState s.state
  have hsel : selectRead s.state = .rdBlock := hblock.mpr ⟨h00, hFA, h20, h30⟩
  split_ifs with hlast
  · rw [exec_rdBlock_repeat hs hsel hlast, returnSlice_eq, ← hlast]
  · exact exec_rdBlock_first hs hsel hlast

/-- An event that addresses the register already addressed leaves the block as it is, the read cursor with it
(R141; D4). -/
theorem exec_wrAddr_same {s : State} (hs : s.started = true) : exec (.wrAddr s.state) s = .next s :=
  HasEffect.exec_eq (i := .wrAddr s.state) ⟨hs, rfl⟩

/-- Settles O31: a first request, an address event that changes nothing, a repeat, and a request that the repeat marker
makes a first one again. -/
theorem calibrationReadsAlternate : Obligations.CalibrationReadsAlternate := by
  intro s hs hst hlast
  have hsel := selectRead_cal hst
  have hfirst := exec_rdCal_first hs hsel hlast
  have haddr := exec_wrAddr_same (s := s.returnSlice (some s.state, 0x00)) hs
  have hsecond := exec_rdCal_repeat (s := s.returnSlice (some s.state, 0x00)) hs hsel rfl
  have hthird := exec_rdCal_first (s := (s.returnSlice (some s.state, 0x00)).returnSlice (none, 0x08)) hs hsel nofun
  have hrun : execMany [.rdCal, .wrAddr s.state, .rdCal, .rdCal] s = .next _ :=
    (execMany_cons hfirst _).trans <| (execMany_cons haddr _).trans <| (execMany_cons hsecond _).trans <|
      execMany_cons hthird []
  rw [hrun, returnSlice_zero, returnSlice_eq, returnSlice_zero]
  simp only [List.append_assoc]
  rfl

/-- A sequence of operations that answers goes on with what is appended to it (R69). -/
theorem execMany_append {is : List Instr} {s t : State} (h : execMany is s = .next t) (js : List Instr) :
    execMany (is ++ js) s = execMany js t := by
  induction is generalizing s with
  | nil =>
    obtain rfl := Host.Outcome.next.inj h
    rfl
  | cons i is ih =>
    cases hi : exec i s with
    | next u => exact (execMany_cons hi _).trans (ih ((execMany_cons hi is).symm.trans h))
    | fault r => cases r
    | refused r => simp [execMany, hi] at h

/-- The block after `n + 1` reads of a generic register (R177, R277; D5): the register and the last offset in the
cursor, and the successive slices in the trace. -/
def State.afterSlices (n : Nat) (s : State) : State :=
  { s with
    lastState := some s.state
    blockOffset := BitVec.ofNat 8 (8 * n)
    trace := s.trace ++ (List.range (n + 1)).map fun k =>
      .response (xform s (s.rf.readRange (s.state + BitVec.ofNat 8 (8 * k)) 8) (s.state + BitVec.ofNat 8 (8 * k))) }

theorem afterSlices_zero (s : State) : s.afterSlices 0 = s.returnSlice (some s.state, 0x00) := rfl

/-- One more slice, 8 above the last one, adds its response (R177). -/
theorem afterSlices_succ (n : Nat) (s : State) :
    s.afterSlices (n + 1) = (s.afterSlices n).returnSlice (some s.state, (s.afterSlices n).blockOffset + 8) := by
  have hoff : (s.afterSlices n).blockOffset + 8 = BitVec.ofNat 8 (8 * (n + 1)) := (BitVec.ofNat_add _ _).symm
  rw [hoff, returnSlice_eq, State.afterSlices, List.range_succ, List.map_append, ← List.append_assoc]
  rfl

/-- `n + 1` reads of a generic register, by induction on the repeats: each finds the register in the cursor. -/
theorem execMany_replicate_rdBlock {s : State} (hs : s.started = true) (hsel : selectRead s.state = .rdBlock)
    (hlast : s.lastState ≠ some s.state) (n : Nat) :
    execMany (List.replicate (n + 1) .rdBlock) s = .next (s.afterSlices n) := by
  induction n with
  | zero =>
    rw [afterSlices_zero, returnSlice_zero]
    exact execMany_cons (exec_rdBlock_first hs hsel hlast) []
  | succ n ih =>
    have hnext := exec_rdBlock_repeat (s := s.afterSlices n) hs hsel rfl
    rw [List.replicate_succ', execMany_append ih, afterSlices_succ]
    exact execMany_cons hnext []

/-- Settles O32: the statement's next state is the block after `n + 1` slices. -/
theorem blockReadsStepThroughRf : Obligations.BlockReadsStepThroughRf := fun _ n hs hsel hlast =>
  execMany_replicate_rdBlock hs hsel hlast n

end Sys2Proof.Machine

/-! ## Read dispatch: the report, the streaming hook's reply and its draws (R172, R173, R222-R225) -/

namespace Sys2Proof.Machine

/-- The block after RD_REPORT (R172): the read cursor, the response from `active`, then the streaming hook. -/
def State.afterReport (s : State) : State :=
  ((s.setCursor (some reportReg, 0x00)).respond s.active.toList reportReg).askStreamHook s.active

theorem exec_rdReport {s : State} (hs : s.started = true) (hst : s.state = 0x00) :
    exec .rdReport s = .next s.afterReport := by
  have hsel : selectRead s.state = .rdReport := by rw [hst]; rfl
  exact HasEffect.exec_eq (i := .rdReport) ⟨hs, hsel, rfl⟩

/-- A report's read has the frame of a read, so neither STARTUP, the addressed register nor the cipher moves
(R175). -/
theorem afterReport_eq (s : State) :
    s.afterReport =
      { s with
        lastState := s.afterReport.lastState
        blockOffset := s.afterReport.blockOffset
        active := s.afterReport.active
        draws := s.afterReport.draws
        refused := s.afterReport.refused
        trace := s.afterReport.trace } := by
  rw [State.afterReport, askStreamHook_eq]
  rfl

@[simp] theorem afterReport_state (s : State) : s.afterReport.state = s.state := (congrArg State.state (afterReport_eq s) :)
@[simp] theorem afterReport_started (s : State) : s.afterReport.started = s.started :=
  (congrArg State.started (afterReport_eq s) :)
@[simp] theorem xform_afterReport (s : State) (pt : List Byte) (start : Byte) :
    xform s.afterReport pt start = xform s pt start := by
  rw [afterReport_eq]
  rfl

/-- The reply takes effect on `active` after the response, and only while the hook is registered (R172, R224). -/
theorem afterReport_active (s : State) :
    s.afterReport.active = if s.streamHookReg then s.hookAnswer.getD s.active else s.active := by
  rw [State.afterReport, askStreamHook_eq]
  rfl

/-- An ask takes one draw (R225). -/
theorem afterReport_draws (s : State) : s.afterReport.draws = if s.streamHookReg then s.draws + 1 else s.draws := by
  rw [State.afterReport, askStreamHook_eq]
  rfl

/-- The response first, then the ask and what the collaborator's call back adds (R172, R224). -/
theorem afterReport_trace (s : State) :
    s.afterReport.trace = s.trace ++ .response (xform s s.active.toList 0x00) ::
      if s.streamHookReg then .hookAsked s.active :: callBackOutputs s.collab else [] :=
  respond_askStreamHook_trace s.active.toList reportReg s.active (s.setCursor (some reportReg, 0x00))

/-- Where the hook is registered, an ask makes its reply active and moves the draws on by one (R224, R225). -/
theorem exec_rdReport_asked {s : State} (hs : s.started = true) (hst : s.state = 0x00) (hreg : s.streamHookReg = true)
    {r : Option Buf6} (hr : s.hookAnswer = r) :
    ∃ t, exec .rdReport s = .next t ∧ t.draws = s.draws + 1 ∧ t.active = r.getD s.active :=
  ⟨_, exec_rdReport hs hst, by rw [afterReport_draws, if_pos hreg], by rw [afterReport_active, if_pos hreg, hr]⟩

/-- RD_REPORT's first output is XFORM of `active`, whatever the streaming hook does afterwards (R172, R173). -/
theorem exec_rdReport_response {s : State} (hs : s.started = true) (hst : s.state = 0x00) :
    ∃ u, exec .rdReport s = .next u ∧
      (outputsSince s u)[0]? = some (.response (xform s s.active.toList 0x00)) := by
  refine ⟨_, exec_rdReport hs hst, ?_⟩
  rw [outputsSince_eq (afterReport_trace s)]
  rfl

/-- Settles O24: by whether the hook is registered, on the outputs and the reply of RD_REPORT. -/
theorem streamingHookAskedAfterResponse : Obligations.StreamingHookAskedAfterResponse := by
  intro s hs hst
  refine ⟨_, exec_rdReport hs hst, fun hreg => ?_, fun hreg => ?_⟩
  · rw [outputsSince_eq (afterReport_trace s), afterReport_active, if_pos hreg, if_pos hreg]
    exact ⟨rfl, rfl, fun b hb => by rw [hb]; rfl, fun hnone => by rw [hnone]; rfl⟩
  · rw [outputsSince_eq (afterReport_trace s), afterReport_active, hreg]
    exact ⟨fun b hb => by simp at hb, rfl⟩

/-- BUF_SWAP's effect: the old buffer is returned, the new one is active (R222). -/
theorem exec_bufSwap {s : State} (hs : s.started = true) (b : Buf6) :
    exec (.bufSwap b) s = .next ((s.setActive b).emit (.swapResult s.active)) :=
  HasEffect.exec_eq (i := .bufSwap b) ⟨hs, rfl⟩

/-- BUF_POKE's effect at a legal index: that byte of the active buffer (R220). -/
theorem exec_bufPoke {s : State} (hs : s.started = true) {i : Nat} (h : i < 6) (v : Byte) :
    exec (.bufPoke i v) s = .next (s.setActive (s.active.set i v h)) := by
  have hset : s.active.setIfInBounds i v = s.active.set i v h :=
    Vector.toArray_inj.mp (dif_pos (s.active.size_toArray.symm ▸ h))
  rw [← hset]
  exact HasEffect.exec_eq (i := .bufPoke i v) ⟨hs, Nat.le_of_lt_succ h, rfl⟩

/-- Settles O40: BUF_SWAP's effect, and RD_REPORT's response from the buffer it installs. -/
theorem bufSwapExchanges : Obligations.BufSwapExchanges := by
  intro b s hs
  refine ⟨exec_bufSwap hs b, fun hst => ?_⟩
  obtain ⟨u, hread, hresp⟩ := exec_rdReport_response (s := (s.setActive b).emit (.swapResult s.active)) hs hst
  exact ⟨_, u, exec_bufSwap hs b, hread, hresp⟩

/-- Settles O25: the replacement is active after the read that asked, which answered first; the next RD_REPORT answers
from it, or from what a swap or a poke has made of it, under the same cipher. -/
theorem streamReplacementServedByNextRead : Obligations.StreamReplacementServedByNextRead := by
  intro s b hs hst hreg hb
  have hts : s.afterReport.started = true := by rw [afterReport_started, hs]
  have htst : s.afterReport.state = 0x00 := by rw [afterReport_state, hst]
  have hactive : s.afterReport.active = b := by rw [afterReport_active, if_pos hreg, hb]; rfl
  refine ⟨_, exec_rdReport hs hst, ?_, ?_, fun b' => ?_, fun i h w => ?_⟩
  · rw [outputsSince_eq (afterReport_trace s)]
    rfl
  · obtain ⟨u, hread, hresp⟩ := exec_rdReport_response hts htst
    exact ⟨u, hread, by rw [hresp, xform_afterReport, hactive]⟩
  · obtain ⟨hswap, hserve⟩ := bufSwapExchanges b' s.afterReport hts
    obtain ⟨v, u, hv, hread, hresp⟩ := hserve htst
    exact ⟨v, u, hv, hread, by rw [hresp, xform_afterReport]⟩
  · have hpoke := exec_bufPoke hts h w
    rw [hactive] at hpoke
    obtain ⟨u, hread, hresp⟩ := exec_rdReport_response (s := s.afterReport.setActive (b.set i w h)) hts htst
    exact ⟨_, u, hpoke, hread, hresp.trans (congrArg (some ∘ Output.response) (xform_afterReport s _ _))⟩

/-! ### Asks are counted -/

/-- From `s` to `t` outputs have been added, and the number of the next draw has moved on by the asks among them
(R225). -/
def CountsAsks (s t : State) : Prop :=
  ∃ out, t.trace = s.trace ++ out ∧ t.draws = s.draws + out.countP Output.isAsk

/-- A change of other fields alone. -/
theorem CountsAsks.of_eq {s t : State} (hd : t.draws = s.draws) (ht : t.trace = s.trace) : CountsAsks s t :=
  ⟨[], by simpa using ht, hd⟩

/-- Outputs that are no asks, with the number left alone. -/
theorem CountsAsks.of_noAsk {s t : State} {out : List Output} (ht : t.trace = s.trace ++ out) (hd : t.draws = s.draws)
    (hout : out.countP Output.isAsk = 0) : CountsAsks s t :=
  ⟨out, ht, by rw [hd, hout, Nat.add_zero]⟩

theorem countsAsks_refuse (r : RefuseReason) (s : State) : CountsAsks s (s.refuse r) := .of_noAsk rfl rfl rfl

/-- A call back's refusal is no ask (R243). -/
theorem countP_isAsk_callBackOutputs (c : Collab) : (callBackOutputs c).countP Output.isAsk = 0 := by
  rw [callBackOutputs]
  split <;> rfl

/-- A notification is no ask (R146, R224). -/
theorem countsAsks_storeBytes_notifyWrite (a : Byte) (d : List Byte) (n : Nat) (s : State) :
    CountsAsks s ((storeBytes a d s).notifyWrite a n) := by
  obtain ⟨htrace, -⟩ := storeBytes_notifyWrite_outputs a d n s
  refine .of_noAsk htrace (by rw [notifyWrite_eq, storeBytes_draws]) ?_
  split
  · simp [Output.isAsk, countP_isAsk_callBackOutputs]
  · rfl

/-- RD_REPORT asks once while the hook is registered, and not at all otherwise (R224). -/
theorem countsAsks_afterReport (s : State) : CountsAsks s s.afterReport := by
  refine ⟨_, afterReport_trace s, ?_⟩
  rw [afterReport_draws]
  split
  · simp [List.countP_cons, Output.isAsk, countP_isAsk_callBackOutputs]
  · rfl

/-- Every operation's effect counts its asks. -/
theorem HasEffect.countsAsks {i : Instr} {s t : State} (h : HasEffect i s t) : CountsAsks s t := by
  cases i with
  | wrAddr _ | setInput _ | regWriteHook _ | regStreamHook _ => obtain ⟨-, rfl⟩ := h; exact .of_eq rfl rfl
  | bufPoke _ _ => obtain ⟨-, -, rfl⟩ := h; exact .of_eq rfl rfl
  | startup => obtain ⟨-, m, -, rfl⟩ := h; exact .of_eq rfl rfl
  | rfGet _ | encode | bufSwap _ => obtain ⟨-, rfl⟩ := h; exact .of_noAsk rfl rfl rfl
  | rdId | rdCal | rdBlock => obtain ⟨-, -, rfl⟩ := h; exact .of_noAsk rfl rfl rfl
  | rdReport => obtain ⟨-, -, rfl⟩ := h; exact countsAsks_afterReport s
  | wrData a d => obtain ⟨-, -, -, rfl⟩ := h; exact countsAsks_storeBytes_notifyWrite a d d.length s

/-- Every operation counts its asks, refused or not. -/
theorem exec_countsAsks {i : Instr} {s t : State} (h : exec i s = .next t) : CountsAsks s t := by
  rcases exec_cases h with heff | ⟨r, rfl⟩
  · exact heff.countsAsks
  · exact countsAsks_refuse r s

/-- Every step counts its asks: taking the next input adds no output and no draw. -/
theorem step_countsAsks {s t : State} (h : step s = .next t) : CountsAsks s t := by
  rcases step_cases h with ⟨-, rfl⟩ | ⟨f, u, hf, hrun⟩
  · exact .of_eq rfl rfl
  · have hasks : CountsAsks u t := by
      rcases hrun with ⟨i, -, hi⟩ | ⟨r, rfl⟩
      · exact exec_countsAsks hi
      · exact countsAsks_refuse r u
    rw [fetch_eq hf] at hasks
    exact hasks

/-- Settles O54: the reply of an ask by its source, the count of every step, and the answer's two arguments. -/
theorem everyAskTakesItsOwnDraw : Obligations.EveryAskTakesItsOwnDraw := by
  refine ⟨fun s hs hst hreg => ⟨fun hdraw => ?_, fun r hgiven => ?_⟩, fun s t h => ?_, fun s t => hookAnswer_congr⟩
  · exact exec_rdReport_asked hs hst hreg (hookAnswer_draw hdraw)
  · exact exec_rdReport_asked hs hst hreg (hookAnswer_given hgiven)
  · obtain ⟨out, htrace, hdraws⟩ := step_countsAsks h
    rw [outputsSince_eq htrace, hdraws]

end Sys2Proof.Machine

/-! ## Report encoder: the fields of the controller input, and the report bit by bit (R37, R200-R204, R206) -/

namespace Sys2Proof

/-! ### One field of the input -/

/-- An axis after an axis was set (R204). -/
theorem Input.axis_setAxis (f g : Axis) (v : Byte) (i : Input) :
    (i.setAxis f v).axis g = if g = f then v else i.axis g := by
  cases f <;> cases g <;> rfl

/-- Setting an axis leaves the flags alone (R204). -/
theorem Input.flag_setAxis (f : Axis) (g : Flag) (v : Byte) (i : Input) : (i.setAxis f v).flag g = i.flag g := by
  cases f <;> rfl

/-- A flag after a flag was set (R204). -/
theorem Input.flag_setFlag (f g : Flag) (v : Bool) (i : Input) :
    (i.setFlag f v).flag g = if g = f then v else i.flag g := by
  cases f <;> cases g <;> rfl

/-- Setting a flag leaves the axes alone (R204). -/
theorem Input.axis_setFlag (f : Flag) (g : Axis) (v : Bool) (i : Input) : (i.setFlag f v).axis g = i.axis g := by
  cases f <;> rfl

end Sys2Proof

namespace Sys2Proof.Machine

/-- SET_INPUT's effect: the input with the field set (R204). -/
theorem exec_setInput {s : State} (hs : s.started = true) (u : InputWrite) :
    exec (.setInput u) s = .next { s with inp := Input.set u s.inp } :=
  HasEffect.exec_eq (i := .setInput u) ⟨hs, rfl⟩

/-- Settles O36: SET_INPUT's effect is on `inp` alone, and there the rules for a set axis and a set flag apply. -/
theorem setInputWritesOneField : Obligations.SetInputWritesOneField := by
  intro s u hs
  refine ⟨_, exec_setInput hs u, rfl, ?axis, ?flag⟩
  case axis =>
    rintro f v rfl
    exact ⟨fun g => s.inp.axis_setAxis f g v, fun g => s.inp.flag_setAxis f g v⟩
  case flag =>
    rintro f v rfl
    exact ⟨fun g => s.inp.flag_setFlag f g v, fun g => s.inp.axis_setFlag f g v⟩

/-! ### The report's bits -/

/-- ENCODE's effect: the report is returned (R200). -/
theorem exec_encode {s : State} (hs : s.started = true) :
    exec .encode s = .next (s.emit (.encodeResult (encodeReport s.inp))) :=
  HasEffect.exec_eq (i := .encode) ⟨hs, rfl⟩

/-- A flag as a byte has the flag in bit 0 and no other bit set (R9). -/
@[simp] theorem getElem_flagByte (b : Bool) {k : Nat} (hk : k < 8) : (flagByte b)[k] = (decide (k = 0) && b) := by
  cases b
  · simp [flagByte]
  · simp [flagByte, ← BitVec.getLsbD_eq_getElem, BitVec.getLsbD_one]

/-- Byte 4's row of the bit map: the XOR inverts all but R and ZR, and bit 0 is 1, as no input reaches it
(R201, R202). -/
theorem bitsOf_reportByte4 (i : Input) : bitsOf (reportByte4 i) =
    [i.r, i.zr, !i.accessoryReady, !i.minus, !i.home, !i.plus, !i.accelZ.getLsbD 1, true] := by
  simp [bitsOf, reportByte4]

/-- Byte 5's row of the bit map: every flag inverted (R201, R202). -/
theorem bitsOf_reportByte5 (i : Input) : bitsOf (reportByte5 i) =
    [!i.z, !i.b, !i.y, !i.a, !i.x, !i.c, !i.left, !i.up] := by
  simp [bitsOf, reportByte5]

/-- Settles O37: ENCODE's effect, then the bit map row by row; bytes 0 to 3 are masked bits of accelZ above an axis
shifted right. -/
theorem encodeReportBitMap : Obligations.EncodeReportBitMap := by
  intro s hs
  refine ⟨exec_encode hs, ?_, ?_, ?_, ?_, bitsOf_reportByte4 s.inp, bitsOf_reportByte5 s.inp⟩
  all_goals simp [bitsOf, encodeReport]

/-! ### The bits that the report drops -/

/-- A mask with bit 0 clear does not see the bit that a shift right by one drops. -/
theorem and_mask_congr_of_ushiftRight_one {w : Nat} {x y m : BitVec w} (h : x >>> 1 = y >>> 1)
    (hm : m.getLsbD 0 = false) : x &&& m = y &&& m := by
  refine BitVec.eq_of_getLsbD_eq fun k _ => ?_
  cases k with
  | zero => simp [hm]
  | succ k =>
    have hbit : (x >>> 1).getLsbD k = (y >>> 1).getLsbD k := by rw [h]
    rw [BitVec.getLsbD_ushiftRight, BitVec.getLsbD_ushiftRight, Nat.add_comm] at hbit
    rw [BitVec.getLsbD_and, BitVec.getLsbD_and, hbit]

/-- Settles O38: the default input's report is evaluated; and the report reads an axis only through its shift or, for
accelZ, through masks with bit 0 clear. -/
theorem goldenReportAndDroppedBits : Obligations.GoldenReportAndDroppedBits := by
  refine ⟨by decide, fun i sx sy ax ay az hsx hsy hax hay haz => ?_⟩
  have hmask : ∀ m : Byte, m.getLsbD 0 = false → az &&& m = i.accelZ &&& m :=
    fun _ => and_mask_congr_of_ushiftRight_one haz
  have hbyte4 :
      reportByte4 { i with sx := sx, sy := sy, accelX := ax, accelY := ay, accelZ := az } = reportByte4 i := by
    simp only [reportByte4, hmask 0x02 rfl]
  have hbyte5 : reportByte5 { i with sx := sx, sy := sy, accelX := ax, accelY := ay, accelZ := az } = reportByte5 i :=
    rfl
  simp only [encodeReport, hsx, hsy, hax, hay, hmask 0xC0 rfl, hmask 0x30 rfl, hmask 0x08 rfl, hmask 0x04 rfl, hbyte4,
    hbyte5]

end Sys2Proof.Machine

/-! ## Buffer exchange: the byte a poke writes, and the two registrations (R220, R226, R227) -/

namespace Sys2Proof.Machine

/-- BUF_POKE above 5 refuses itself, before it looks at the buffer (R220). -/
theorem exec_bufPoke_pokeIndex {i : Nat} (h : 5 < i) (v : Byte) (s : State) :
    exec (.bufPoke i v) s = refuseWith .pokeIndex s :=
  if_pos h

/-- Settles O39: BUF_POKE's effect at a legal index, and its own refusal at any other. -/
theorem bufPokeWritesOneByte : Obligations.BufPokeWritesOneByte := by
  intro i v s hs
  refine ⟨fun h => exec_bufPoke hs h v, fun h => ?_⟩
  exact (exec_bufPoke_pokeIndex h v s).trans (refuseWith_started hs .pokeIndex)

/-- REG_WRITE_HOOK's effect: the write hook's registration bit (R226). -/
theorem exec_regWriteHook {s : State} (hs : s.started = true) (r : Bool) :
    exec (.regWriteHook r) s = .next { s with writeHookReg := r } :=
  HasEffect.exec_eq (i := .regWriteHook r) ⟨hs, rfl⟩

/-- REG_STREAM_HOOK's effect: the streaming hook's registration bit (R227). -/
theorem exec_regStreamHook {s : State} (hs : s.started = true) (r : Bool) :
    exec (.regStreamHook r) s = .next { s with streamHookReg := r } :=
  HasEffect.exec_eq (i := .regStreamHook r) ⟨hs, rfl⟩

/-- Settles O41: each registration's effect. -/
theorem hookRegistration : Obligations.HookRegistration :=
  fun r _ hs => ⟨exec_regWriteHook hs r, exec_regStreamHook hs r⟩

end Sys2Proof.Machine

/-! ## Exceptions: what is taken next, the answer of every step, and the block before STARTUP (R240-R257, R271) -/

namespace Sys2Proof.Machine

/-! ### What the next step takes -/

theorem takeEvent_nil {s : State} (h : s.events = []) : takeEvent s = none := by
  simp [takeEvent, h]

theorem takeEvent_cons {s : State} {e : Event} {es : List Event} (h : s.events = e :: es) :
    takeEvent s = some (e.frame, { s with events := es, turns := s.turns.tail, collab := e.collab }) := by
  simp [takeEvent, h]

theorem takeCall_nil {s : State} (h : s.calls = []) : takeCall s = none := by
  simp [takeCall, h]

theorem takeCall_cons {s : State} {c : Call} {cs : List Call} (h : s.calls = c :: cs) :
    takeCall s = some (c.frame, { s with calls := cs, turns := s.turns.tail, collab := Collab.silent }) := by
  simp [takeCall, h]

/-- On the application's turn the oldest pending call goes first (R250). -/
theorem fetch_appTurn {s : State} (h : s.turns.head? = some .app) : fetch s = (takeCall s).or (takeEvent s) :=
  if_pos (decide_eq_true h)

/-- With no call pending the application gives way, whoever's turn it is (R250). -/
theorem fetch_of_calls_nil {s : State} (h : s.calls = []) : fetch s = takeEvent s := by
  rw [fetch, takeCall_nil h, Option.none_or, Option.or_none, ite_self]

/-- With no event pending the event context gives way, whoever's turn it is (R245, R250). -/
theorem fetch_of_events_nil {s : State} (h : s.events = []) : fetch s = takeCall s := by
  rw [fetch, takeEvent_nil h, Option.none_or, Option.or_none, ite_self]

/-- With nothing pending the block waits (R21; log entry 7). -/
theorem step_of_fetch_none {s : State} (h : fetch s = none) : step s = .next s := by
  simp [step, h]

/-- Settles O8: by whose turn it is, or by which agent gives way. -/
theorem fetchTakesTheOldestByTurn : Obligations.FetchTakesTheOldestByTurn := by
  intro s
  refine ⟨fun e es hev hturn => ?_, fun c cs hcall hturn => ?_, fun hev hcall => ?_⟩
  · rcases hturn with hturn | hnone
    · exact fetch_event hev hturn
    · exact (fetch_of_calls_nil hnone).trans (takeEvent_cons hev)
  · rcases hturn with hturn | hnone
    · rw [fetch_appTurn hturn, takeCall_cons hcall, Option.some_or]
    · exact (fetch_of_events_nil hnone).trans (takeCall_cons hcall)
  · have hfetch : fetch s = none := (fetch_of_events_nil hev).trans (takeCall_nil hcall)
    exact ⟨hfetch, step_of_fetch_none hfetch⟩

/-! ### Every operation but STARTUP is checked before it runs -/

/-- A read operation is refused where another one is selected, and a checked operation where it is (R83, R170). -/
theorem whenSelected_checked (op : Instr) (s u : State) :
    (∃ r, whenSelected op s u = refuseWith r s) ∨ ∃ t, whenSelected op s u = whenStarted s t := by
  by_cases hsel : selectRead s.state = op
  · exact .inr ⟨u, whenSelected_selected hsel u⟩
  · exact .inl ⟨.notSelected, if_neg hsel⟩

/-- An operation other than STARTUP is refused, or comes to a state that it answers only once the block has started
(R243, R271). -/
theorem exec_checked {i : Instr} (hi : i ≠ .startup) (s : State) :
    (∃ r, exec i s = refuseWith r s) ∨ ∃ t, exec i s = whenStarted s t := by
  cases i with
  | wrAddr _ | rfGet _ | setInput _ | encode | bufSwap _ | regWriteHook _ | regStreamHook _ => exact .inr ⟨_, rfl⟩
  | wrData a d =>
    simp only [exec, execWrData]
    split_ifs
    · exact .inl ⟨_, rfl⟩
    · exact .inl ⟨_, rfl⟩
    · exact .inr ⟨_, rfl⟩
  | rdReport | rdId | rdCal | rdBlock => exact whenSelected_checked _ s _
  | bufPoke j v =>
    simp only [exec, execBufPoke]
    split_ifs
    · exact .inl ⟨_, rfl⟩
    · exact .inr ⟨_, rfl⟩
  | startup => exact absurd rfl hi

/-- Before STARTUP every other operation is refused as BeforeStartup, whatever else is wrong with it (R271; log
entry 15). -/
theorem exec_before {s : State} (hs : s.started = false) {i : Instr} (hi : i ≠ .startup) :
    exec i s = .next (s.refuse .beforeStartup) := by
  rcases exec_checked hi s with ⟨r, h⟩ | ⟨t, h⟩
  · exact h.trans (refuseWith_before hs r)
  · exact h.trans (whenStarted_before hs t)

/-- Settles O44: a frame that decodes is an operation other than STARTUP, and a rejected one has the same refusal. -/
theorem nothingRunsBeforeStartup : Obligations.NothingRunsBeforeStartup := by
  intro s f hs hf
  cases hdec : decode s.state f with
  | ok i => exact (perform_of_decode_ok hdec).trans (exec_before hs fun hi => hf (hi ▸ hdec))
  | error r => exact (perform_of_decode_error hdec).trans (refuseWith_before hs r)

/-! ### Every step answers -/

/-- A refused input is a next state, not an exception (R240, R243). -/
theorem refuseWith_answers (r : RefuseReason) (s : State) : ∃ t, refuseWith r s = .next t := ⟨_, rfl⟩

theorem whenStarted_answers (s u : State) : ∃ t, whenStarted s u = .next t := by
  cases hs : s.started with
  | false => exact ⟨_, whenStarted_before hs u⟩
  | true => exact ⟨_, whenStarted_started hs u⟩

/-- STARTUP answers the reset state, since its writes to RF are in range, and a second one its refusal (R103, R270). -/
theorem exec_startup_answers (s : State) : ∃ t, exec .startup s = .next t := by
  cases hs : s.started with
  | false =>
    obtain ⟨m, -, h⟩ := exec_startup_before hs
    exact ⟨_, h⟩
  | true => exact exec_startup_started hs ▸ refuseWith_answers _ s

/-- Every operation answers a next state (R240, R242). -/
theorem exec_answers (i : Instr) (s : State) : ∃ t, exec i s = .next t := by
  by_cases hi : i = .startup
  · exact hi ▸ exec_startup_answers s
  · rcases exec_checked hi s with ⟨r, h⟩ | ⟨u, h⟩
    · exact h ▸ refuseWith_answers r s
    · exact h ▸ whenStarted_answers s u

/-- Every frame is performed to a next state, decoded or rejected (R243). -/
theorem perform_answers (f : Frame) (s : State) : ∃ t, perform f s = .next t := by
  cases hdec : decode s.state f with
  | ok i => exact perform_of_decode_ok hdec ▸ exec_answers i s
  | error r => exact perform_of_decode_error hdec ▸ refuseWith_answers r s

/-- Settles O9: the step performs the frame taken, or waits where it is. -/
theorem everyStepAnswersNext : Obligations.EveryStepAnswersNext := by
  refine ⟨exec_answers, fun s => ?_⟩
  cases hf : fetch s with
  | none => exact ⟨s, step_of_fetch_none hf⟩
  | some taken => exact step_of_fetch_some hf ▸ perform_answers taken.1 taken.2

/-! ### Outputs are only added -/

/-- Settles O52: the outputs of the step come after the ones there were, as every operation's effect adds them. -/
theorem outputsAreNeverRetracted : Obligations.OutputsAreNeverRetracted := by
  intro s t h
  obtain ⟨out, htrace, -⟩ := (step_keepsMark h).outputs
  exact ⟨out, htrace.symm⟩

end Sys2Proof.Machine
